-- ==== Sys2Proof/Word.lean ====
section
/-! DEFINITION. The data of the core: bytes and fixed-length byte vectors (spec/00_scope.md, rules R9 and R11).

Every data register is a byte vector indexed from 0, byte 0 first; no rule of the spec ever forms a number from more than
one byte (spec/20_memory.md, rule R63), so a vector of bytes, and not a wide bit vector, is what the spec describes. -/

namespace Sys2Proof

/-- A byte, an integer 0..255 read as eight bits with bit 7 most significant (R9, R10). -/
abbrev Byte := BitVec 8

/-- `Bytes(n)`: a vector of `n` bytes indexed from 0 (R9). -/
abbrev Bytes (n : Nat) := Vector Byte n

/-- `zero(n)`, the vector of `n` zero bytes (R11). -/
def zeroBytes (n : Nat) : Bytes n := Vector.replicate n 0#8

end Sys2Proof
end

