-- ==== Sys2Proof/Config.lean ====
section
/-! DEFINITION. What is fixed when the core is built: the round counts (spec/00_scope.md, rule R6), the PRF behind the port
(rule R7), and the free value of a round key that does not exist (notes/assumptions/5.md). -/

namespace Sys2Proof

/-- The three round counts a core is built with (R6); `RoundCounts.wellFormed` of `WellFormed.lean` is R6's check. -/
structure RoundCounts where
  /-- `NR_F`, the rounds of the Feistel variant. -/
  nrF : Nat
  /-- `NR_LM`, the rounds of the Lai-Massey variant. -/
  nrLM : Nat
  /-- `NR_MAX`, the number of round-key registers built. -/
  nrMax : Nat
deriving DecidableEq, Repr

/-- The type of a PRF unit's function: a 32-byte key and a 16-byte input give a 32-byte output (R7, R70). -/
abbrev Prf := Bytes 32 → Bytes 16 → Bytes 32

namespace Config

/-- `NR_F = 8` (R6). -/
abbrev nrF : Nat := 8

/-- `NR_LM = 6` (R6). -/
abbrev nrLM : Nat := 6

/-- `NR_MAX = 8` (R6). -/
abbrev nrMax : Nat := 8

/-- The configuration of this hardware (R6). DESIGN CHOICE: fixed, no argument of the model; safe
(notes/assumptions/14.md). -/
def rounds : RoundCounts := { nrF := nrF, nrLM := nrLM, nrMax := nrMax }

/-- The function of the PRF unit, a parameter of the model of which nothing is assumed but its type: total, deterministic,
side-effect-free (R7, R71). It has no body, so whatever is proved holds of every PRF. DEDUCED, safe
(notes/assumptions/1.md). -/
opaque prf : Prf

/-- FREE VALUE: what reading round-key register `i` gives when no such register is built (`NR_MAX <= i`). The spec gives no
value there and no run from reset reads it (R65, R205; spec/93_implementation_defined.md U8). DESIGN CHOICE, safe
(notes/assumptions/5.md). -/
opaque absentRoundKey : Nat → Bytes 32

end Config
end Sys2Proof
end

