-- ==== Sys2Proof/Machine/State.lean ====
section
/-! DEFINITION. The state of the core (spec/10_state.md, rules R22 to R44) as plain data: the fourteen registers of rule R22,
the one piece of hidden state of rule R42 (a request outstanding on the PRF port), and, as the MODEL's own, the environment
that acts on the core (the host and the PRF unit, rule R20): the step takes no input, so what they do next stands in State.
DESIGN CHOICE, safe (notes/assumptions/2.md). -/

namespace Sys2Proof.Machine

/-- `PHASE`, the micro-operation the core executes next: an enumeration of the fourteen values of R99, the reserved codes 14
and 15 having no constructor (R34, R100; U6). DEDUCED, safe (notes/assumptions/9.md). -/
inductive Phase where
  | idle
  | ksinit
  | kswk
  | ksrk
  | split
  | wha
  | whb
  | fl
  | fr
  | lmmix
  | lmsig
  | lmisig
  | merge
  | erase
deriving DecidableEq, Repr

/-- `STATUS`: exactly five values of the 4-bit register occur, and the others are given no constructor (R36; U7).
DEDUCED, safe (notes/assumptions/9.md). `statusBits` of `Flags.lean` gives the bits. -/
inductive Status where
  /-- `0b0000`: after reset, nothing done yet. -/
  | clear
  /-- `0b0001`: a command is in progress. -/
  | busy
  /-- `0b0010`: the last START was accepted and its command has completed. -/
  | done
  /-- `0b0100`: the last START was refused with SizeMismatch. -/
  | sizeMismatch
  /-- `0b1000`: the last START was refused with IllegalCommand. -/
  | illegalCommand
deriving DecidableEq, Repr

/-- The two exceptions, both raised by START and nowhere else (spec/60_exceptions.md, R240). -/
inductive CoreException where
  | sizeMismatch
  | illegalCommand
deriving DecidableEq, Repr

/-- A request on the PRF port (R70). -/
structure PrfRequest where
  key : Bytes 32
  input : Bytes 16
deriving DecidableEq, Repr

/-- The three registers the host can read (R38). -/
inductive HostReg where
  | status
  | dout
  | cmdr
deriving DecidableEq, Repr

/-- What a host read answers (R38). -/
inductive HostValue where
  | status (bits : BitVec 4)
  | dout (block : Bytes 16)
  | cmdr (word : BitVec 32)
deriving DecidableEq, Repr

/-- One thing the environment can do, or let happen, in one step. The host's are the actions of spec/30_encoding.md R102
(`STEP n` is `n` times `coreStep`); the PRF unit's are those of spec/20_memory.md R73. -/
inductive Event where
  /-- `RESET`: the reset input is asserted and released (R270). -/
  | reset
  /-- `START`: the host presents a command word, a key and a block, together (R77, R281). -/
  | start (cmdw : BitVec 32) (key : Bytes 32) (din : Bytes 16)
  /-- One micro-operation of the core, its PRF request, if it makes one, answered in the same step (R67, R75). -/
  | coreStep
  /-- `WAIT`: the core runs until `PHASE = IDLE` (R102). -/
  | wait
  /-- `READ`: the host reads a register (R38). -/
  | read (r : HostReg)
  /-- Time passes in which the PRF unit does not answer: a micro-operation that calls the PRF stays waiting with its request
  outstanding, and nothing else happens (R73, R74). -/
  | prfDelay
  /-- The PRF unit delivers a response: the waiting micro-operation completes; with no request outstanding the response is
  ignored (R73, R272). Its value is `prf` of the request (R71), so the event carries none. -/
  | prfAnswer
deriving DecidableEq, Repr

/-- MODEL's own: the environment of the core. -/
structure Env where
  /-- What the host drives on the key port; sampled by an accepted START only (R78). -/
  keyPort : Bytes 32
  /-- What the host drives on the data-in port; sampled by an accepted START only (R78). -/
  dinPort : Bytes 16
  /-- What happens next, first event first; when it is empty the core runs by itself. -/
  script : List Event
  /-- What the host has read so far, oldest first. -/
  seen : List HostValue
deriving DecidableEq, Repr

/-- The complete state of one core, in the order of R22, then R42's hidden state, then the environment. -/
structure State where
  /-- `KEY`, 32 bytes: the master key of the current command (R24). -/
  key : Bytes 32
  /-- `DIN`, 16 bytes: the input block of the current command (R25). -/
  din : Bytes 16
  /-- `DOUT`, 16 bytes: the output block of the last completed command (R26). -/
  dout : Bytes 16
  /-- `CTR`, 16 bytes: the key-schedule nonce/counter (R27). -/
  ctr : Bytes 16
  /-- `WK`, 32 bytes: the whitening material (R28). -/
  wk : Bytes 32
  /-- `RK[0..NR_MAX-1]`, 32 bytes each: the round keys (R23). -/
  rk : Vector (Bytes 32) Config.nrMax
  /-- `LBUF`, 16 bytes: the Left Half and its padding (R29). -/
  lbuf : Bytes 16
  /-- `RBUF`, 16 bytes: the Right Half and its padding (R29). -/
  rbuf : Bytes 16
  /-- `CBUF`, 16 bytes: Combined and its padding (R31). -/
  cbuf : Bytes 16
  /-- `POUT`, 32 bytes: the last PRF output (R32). -/
  pout : Bytes 32
  /-- `CMDR`, 32 bits: the last command word presented while IDLE (R33). -/
  cmdr : BitVec 32
  /-- `PHASE`, 4 bits (R34). -/
  phase : Phase
  /-- `RND`, 8 bits: the round index (R35). -/
  rnd : BitVec 8
  /-- `STATUS`, 4 bits (R36). -/
  status : Status
  /-- The request outstanding on the PRF port, if one is (R42, R73). -/
  prfReq : Option PrfRequest
  /-- MODEL's own: the environment. -/
  env : Env
deriving DecidableEq, Repr

/-- No environment event to come, nothing read, the key and data-in ports at zero (the core never reads the ports but
in an accepted START, U14). DESIGN CHOICE, unsafe (notes/assumptions/3.md). -/
def Env.quiet : Env :=
  { keyPort := zeroBytes 32, dinPort := zeroBytes 16, script := [], seen := [] }

/-- The machine right after reset: every register of R22 zero, `PHASE = IDLE`, `STATUS = 0b0000` (R43, R270), no request
outstanding (R272). -/
def State.reset : State :=
  { key := zeroBytes 32
    din := zeroBytes 16
    dout := zeroBytes 16
    ctr := zeroBytes 16
    wk := zeroBytes 32
    rk := Vector.replicate Config.nrMax (zeroBytes 32)
    lbuf := zeroBytes 16
    rbuf := zeroBytes 16
    cbuf := zeroBytes 16
    pout := zeroBytes 32
    cmdr := 0#32
    phase := .idle
    rnd := 0#8
    status := .clear
    prfReq := none
    env := Env.quiet }

/-- Why a step stops with a fault: NO REASON EXISTS. No micro-operation raises anything, the two exceptions of START are
taken as next states, there is no memory, and the PRF port has no error signal (R60, R240, R248). -/
inductive Fault where
deriving DecidableEq, Repr

/-- Why a step is refused. -/
inductive Refusal where
  /-- Raised by an arm of `exec` whose instruction has no meaning yet; no arm is of that kind, so no step answers it. Safe:
  the model stops where the hardware goes on. -/
  | notModelled (mnemonic : String)
deriving DecidableEq, Repr

end Sys2Proof.Machine
end

