-- ==== Sys2Proof/Machine/Flags.lean ====
section
/-! DEFINITION. `STATUS`, the core's only flags (spec/10_state.md, R36), the level outputs that copy them
(spec/60_exceptions.md, R250) and the port's `ready` (spec/20_memory.md, R77). No flag depends on data. -/

namespace Sys2Proof.Machine

/-- The four bits of `STATUS`: ERR in 3..2, DONE in 1, BUSY in 0 (R36). -/
def statusBits : Status → BitVec 4
  | .clear => 0b0000#4
  | .busy => 0b0001#4
  | .done => 0b0010#4
  | .sizeMismatch => 0b0100#4
  | .illegalCommand => 0b1000#4

/-- `STATUS.BUSY`, bit 0 (R36). -/
def statusBusy (st : Status) : Bool := (statusBits st).getLsbD 0

/-- `STATUS.DONE`, bit 1 (R36). -/
def statusDone (st : Status) : Bool := (statusBits st).getLsbD 1

/-- `STATUS.ERR`, bits 3..2 (R36, R240). -/
def statusErr (st : Status) : BitVec 2 := (statusBits st).extractLsb' 2 2

/-- What a refused START writes to `STATUS`: `{ERR = code, DONE = 0, BUSY = 0}` (R240, R244). -/
def statusOfException : CoreException → Status
  | .sizeMismatch => .sizeMismatch
  | .illegalCommand => .illegalCommand

/-- `ready = (PHASE == IDLE)`: a START is taken only then (R77). -/
def ready (s : State) : Bool := decide (s.phase = .idle)

/-- The level output `done = STATUS.DONE` (R78, R250). -/
def doneOut (s : State) : Bool := statusDone s.status

/-- The level output `err = (STATUS.ERR != 0)` (R78, R250). -/
def errOut (s : State) : Bool := decide (statusErr s.status ≠ 0#2)

end Sys2Proof.Machine
end

