-- ==== Sys2Proof/Syntax.lean ====
section
/-! DEFINITION. The instructions: one constructor for each of the seventeen rows of spec/opcode_table.json, the four host
commands (format CMD) and the thirteen micro-operations of the sequencer (format UOP), with the two binary choices a
command word spells. -/

namespace Sys2Proof

/-- DIR: the source's function, `Encrypt` or `Decrypt` (spec/30_encoding.md, R91). -/
inductive Direction where
  | encrypt
  | decrypt
deriving DecidableEq, Repr

/-- VAR: the cipher variant, Feistel or Lai-Massey (R92). -/
inductive Variant where
  | feistel
  | laiMassey
deriving DecidableEq, Repr

/-- The rows of spec/opcode_table.json. A command carries the three byte counts of its word, which are plain unsigned counts
used with no scaling (R94); a micro-operation has no operand field, its code alone selects it (R99). -/
inductive Instr where
  /-- `ENC.F`, opcode 0x00 (R95, R201). -/
  | encF (klen ilen olen : Nat)
  /-- `DEC.F`, opcode 0x01 (R95, R202). -/
  | decF (klen ilen olen : Nat)
  /-- `ENC.LM`, opcode 0x02 (R95, R203). -/
  | encLM (klen ilen olen : Nat)
  /-- `DEC.LM`, opcode 0x03 (R95, R204). -/
  | decLM (klen ilen olen : Nat)
  /-- `KSINIT`, code 1 (R99, R121). -/
  | ksinit
  /-- `KSWK`, code 2 (R99, R122). -/
  | kswk
  /-- `KSRK`, code 3 (R99, R123). -/
  | ksrk
  /-- `SPLIT`, code 4 (R99, R140). -/
  | split
  /-- `WHA`, code 5 (R99, R141). -/
  | wha
  /-- `WHB`, code 6 (R99, R142). -/
  | whb
  /-- `FL`, code 7 (R99, R161). -/
  | fl
  /-- `FR`, code 8 (R99, R162). -/
  | fr
  /-- `LMMIX`, code 9 (R99, R184). -/
  | lmmix
  /-- `LMSIG`, code 10 (R99, R185). -/
  | lmsig
  /-- `LMISIG`, code 11 (R99, R186). -/
  | lmisig
  /-- `MERGE`, code 12 (R99, R143). -/
  | merge
  /-- `ERASE`, code 13 (R99, R206). -/
  | erase
deriving DecidableEq, Repr

end Sys2Proof
end

