-- ==== Sys2Proof/WellFormed.lean ====
section
/-! DEFINITION. What may be encoded (a length field is 8 bits wide) and what may be built (the configuration check of R6). -/

namespace Sys2Proof

/-- The three length fields of a command word are unsigned 8-bit byte counts, 0..255 (spec/30_encoding.md, R94). -/
def lengthsFit (klen ilen olen : Nat) : Bool :=
  decide (klen < 256) && decide (ilen < 256) && decide (olen < 256)

/-- An instruction is well-formed when its fields fit their places in the encoding (R94); a micro-operation has no field. -/
def Instr.wellFormed : Instr → Bool
  | .encF k i o => lengthsFit k i o
  | .decF k i o => lengthsFit k i o
  | .encLM k i o => lengthsFit k i o
  | .decLM k i o => lengthsFit k i o
  | .ksinit => true
  | .kswk => true
  | .ksrk => true
  | .split => true
  | .wha => true
  | .whb => true
  | .fl => true
  | .fr => true
  | .lmmix => true
  | .lmsig => true
  | .lmisig => true
  | .merge => true
  | .erase => true

/-- The check of spec/00_scope.md, R6, that a configuration must pass before anything else: `NR_F` is even, `2 <= NR_F`,
`1 <= NR_LM`, and `max(NR_F, NR_LM) <= NR_MAX <= 254`. A configuration that fails it is refused (R6, R166, R274). -/
def RoundCounts.wellFormed (c : RoundCounts) : Bool :=
  decide (c.nrF % 2 = 0) && decide (2 ≤ c.nrF) && decide (1 ≤ c.nrLM)
    && decide (max c.nrF c.nrLM ≤ c.nrMax) && decide (c.nrMax ≤ 254)

end Sys2Proof
end

