-- ==== Sys2Proof/Decode.lean ====
section
/-! DEFINITION. The decoder (total: every 32-bit word and every 4-bit code gets one verdict, spec/30_encoding.md R96, R99,
R100) and, after it, the encoder, both written from the spec's encoding tables. -/

namespace Sys2Proof

/-! ### The fields of a command word (R90) -/

/-- DIR, bit 0 (R90, R91). -/
def dirOf (w : BitVec 32) : Direction := if w.getLsbD 0 then .decrypt else .encrypt

/-- VAR, bit 1 (R90, R92). -/
def varOf (w : BitVec 32) : Variant := if w.getLsbD 1 then .laiMassey else .feistel

/-- RSV0, bits 7..2 (R90, R93). -/
def rsv0Of (w : BitVec 32) : BitVec 6 := w.extractLsb' 2 6

/-- KLEN, bits 15..8, as a count (R90, R94). -/
def klenOf (w : BitVec 32) : Nat := (w.extractLsb' 8 8).toNat

/-- ILEN, bits 23..16, as a count (R90, R94). -/
def ilenOf (w : BitVec 32) : Nat := (w.extractLsb' 16 8).toNat

/-- OLEN, bits 31..24, as a count (R90, R94). -/
def olenOf (w : BitVec 32) : Nat := (w.extractLsb' 24 8).toNat

/-! ### The decoder -/

/-- Why something spells no instruction. -/
inductive DecodeError where
  /-- `cmdw[7:2] != 0`: the word spells no command (R97); START answers it with the exception IllegalCommand (R242). -/
  | illegalCommand (cmdw : BitVec 32)
  /-- `PHASE` code 0: IDLE is no micro-operation, the core waits for START (R99). -/
  | idle
  /-- `PHASE` codes 14 and 15 are reserved (R100). -/
  | reservedPhase (code : BitVec 4)
deriving DecidableEq, Repr

/-- The command with the given direction, variant and length fields (R95). -/
def commandOf (d : Direction) (v : Variant) (klen ilen olen : Nat) : Instr :=
  match d, v with
  | .encrypt, .feistel => .encF klen ilen olen
  | .decrypt, .feistel => .decF klen ilen olen
  | .encrypt, .laiMassey => .encLM klen ilen olen
  | .decrypt, .laiMassey => .decLM klen ilen olen

/-- Decoding a command word (R96): first RSV0, then the command selected by `cmdw[1:0]`. Whether the lengths are the right
ones is not a matter of spelling (R98): START's meaning checks them. -/
def decodeCommand (w : BitVec 32) : Except DecodeError Instr :=
  if rsv0Of w ≠ 0#6 then .error (.illegalCommand w)
  else .ok (commandOf (dirOf w) (varOf w) (klenOf w) (ilenOf w) (olenOf w))

/-- Decoding a micro-operation: the 4-bit code alone selects it (R99, R100). -/
def decodePhase (c : BitVec 4) : Except DecodeError Instr :=
  match c.toNat with
  | 0 => .error .idle
  | 1 => .ok .ksinit
  | 2 => .ok .kswk
  | 3 => .ok .ksrk
  | 4 => .ok .split
  | 5 => .ok .wha
  | 6 => .ok .whb
  | 7 => .ok .fl
  | 8 => .ok .fr
  | 9 => .ok .lmmix
  | 10 => .ok .lmsig
  | 11 => .ok .lmisig
  | 12 => .ok .merge
  | 13 => .ok .erase
  | _ => .error (.reservedPhase c)

/-- The two formats: a 32-bit command word (CMD) or a 4-bit code of the sequencer (UOP) (spec/30_encoding.md). -/
inductive Code where
  | command (w : BitVec 32)
  | phase (c : BitVec 4)
deriving DecidableEq, Repr

/-- The decoder over both formats. -/
def decode : Code → Except DecodeError Instr
  | .command w => decodeCommand w
  | .phase c => decodePhase c

/-! ### The encoder -/

/-- The bit of DIR (R91). -/
def dirBit : Direction → BitVec 1
  | .encrypt => 0#1
  | .decrypt => 1#1

/-- The bit of VAR (R92). -/
def varBit : Variant → BitVec 1
  | .feistel => 0#1
  | .laiMassey => 1#1

/-- The command word: OLEN, ILEN, KLEN, RSV0 = 0, VAR, DIR from bit 31 down to bit 0 (R90). -/
def commandWord (d : Direction) (v : Variant) (klen ilen olen : Nat) : BitVec 32 :=
  BitVec.ofNat 8 olen ++ BitVec.ofNat 8 ilen ++ BitVec.ofNat 8 klen ++ 0#6 ++ varBit v ++ dirBit d

/-- The encoding of an instruction: a command's word (R90, R95) or a micro-operation's code (R99). -/
def encode : Instr → Code
  | .encF k i o => .command (commandWord .encrypt .feistel k i o)
  | .decF k i o => .command (commandWord .decrypt .feistel k i o)
  | .encLM k i o => .command (commandWord .encrypt .laiMassey k i o)
  | .decLM k i o => .command (commandWord .decrypt .laiMassey k i o)
  | .ksinit => .phase 1#4
  | .kswk => .phase 2#4
  | .ksrk => .phase 3#4
  | .split => .phase 4#4
  | .wha => .phase 5#4
  | .whb => .phase 6#4
  | .fl => .phase 7#4
  | .fr => .phase 8#4
  | .lmmix => .phase 9#4
  | .lmsig => .phase 10#4
  | .lmisig => .phase 11#4
  | .merge => .phase 12#4
  | .erase => .phase 13#4

/-! ### The table's numbering -/

/-- A result without the reason of its failure. -/
def decoded? (r : Except DecodeError Instr) : Option Instr :=
  match r with
  | .ok i => some i
  | .error _ => none

/-- The code that a row of `nbits` bits with the bits `w` stands for. The table has 32-bit rows (commands) and 4-bit rows
(micro-operations), which fill one byte here: up to 8 bits, a code that names a micro-operation is one, and any other byte is
the low byte of a command word whose upper bits are 0 (notes/assumptions/8.md). -/
def tableCode (nbits w : Nat) : Code :=
  if nbits ≤ 8 ∧ 1 ≤ w ∧ w ≤ 13 then .phase (BitVec.ofNat 4 w) else .command (BitVec.ofNat 32 w)

/-- The instruction the decoder reads from a table row's bits. -/
def decodeTableWord (nbits w : Nat) : Option Instr := decoded? (decode (tableCode nbits w))

end Sys2Proof
end

