-- ==== Sys2Proof/Machine/Bytes.lean ====
section
/-! DEFINITION. The data operations of the core: bytewise exclusive-or, copying, slicing and concatenating byte vectors, and
one byte increment (spec/00_scope.md, R11 and R14), and how a byte vector lies on the wires of a port (R10). There is no
other. -/

namespace Sys2Proof.Machine

/-- `A ^ B`, the bytewise exclusive-or (R11). -/
def xorBytes {n : Nat} (a b : Bytes n) : Bytes n := Vector.ofFn fun i => a[i] ^^^ b[i]

/-- `B[off..off+len)` (R9). -/
def slice {n : Nat} (b : Bytes n) (off len : Nat) (h : off + len ≤ n := by decide) : Bytes len :=
  Vector.ofFn fun i => b[off + i.val]'(Nat.lt_of_lt_of_le (Nat.add_lt_add_left i.isLt off) h)

/-- `A || B`, `A`'s bytes first (R11). -/
def cat {m n : Nat} (a : Bytes m) (b : Bytes n) : Bytes (m + n) :=
  Vector.ofFn fun i =>
    if h : i.val < m then a[i.val] else b[i.val - m]'(Nat.sub_lt_left_of_lt_add (Nat.le_of_not_lt h) i.isLt)

/-- A byte vector on the wires of a port: byte `k` on bits `[8k+7 : 8k]`, bit 7 of a byte most significant
(spec/00_scope.md, R10). -/
def portBits {n : Nat} (b : Bytes n) : BitVec (8 * n) :=
  BitVec.ofFnLE fun j : Fin (8 * n) =>
    (b[j.val / 8]'(Nat.div_lt_of_lt_mul j.isLt)).getLsbD (j.val % 8)

/-- The byte vector that the wires of a port carry (R10). -/
def portBytes {n : Nat} (w : BitVec (8 * n)) : Bytes n := Vector.ofFn fun k => w.extractLsb' (8 * k.val) 8

/-- `pad16(H) = H || zero(8)` (R11): the half in bytes 0..7, zeros in bytes 8..15 (R29, R140). -/
def pad16 (h : Bytes 8) : Bytes 16 := cat h (zeroBytes 8)

/-- `trunc8(O) = O[0..8)` (R11, R160). -/
def trunc8 (o : Bytes 32) : Bytes 8 := slice o 0 8

/-- The half held in a padded buffer, its bytes 0..7 (R29). -/
def halfOf (buf : Bytes 16) : Bytes 8 := slice buf 0 8

/-- `X[0..8) <- h`: bytes 8..15 keep their value (R12). -/
def writeHalf (buf : Bytes 16) (h : Bytes 8) : Bytes 16 := cat h (slice buf 8 8)

/-- `CTR[15] <- (CTR[15] + 1) mod 256`: no carry into byte 14 (R122, R125). -/
def incLast (ctr : Bytes 16) : Bytes 16 := Vector.ofFn fun i => if i.val = 15 then ctr[i] + 1#8 else ctr[i]

/-- `zero(15) || [j]` (R120). -/
def counterBlock (j : Nat) : Bytes 16 := Vector.ofFn fun i => if i.val = 15 then BitVec.ofNat 8 j else 0#8

/-- The orthomorphism on a half of two quarters: `sigma(a || b) = b || (a ^ b)` (spec/43_lai_massey.md, R180). Both new
quarters are computed from the old ones (R288). -/
def sigma (h : Bytes 8) : Bytes 8 := cat (slice h 4 4) (xorBytes (slice h 0 4) (slice h 4 4))

/-- Its inverse: `sigma_inv(x || y) = (x ^ y) || x` (R181; spec/90_conflicts.md C3: the purpose wins over the formula). -/
def sigmaInv (h : Bytes 8) : Bytes 8 := cat (xorBytes (slice h 0 4) (slice h 4 4)) (slice h 0 4)

end Sys2Proof.Machine
end

