-- ==== Sys2Proof/Machine/Operands.lean ====
section
/-! DEFINITION. What a micro-operation reads: the halves, the latched command's direction and variant, the round count, the
round keys, and the requests on the PRF port (spec/20_memory.md R66, R72). -/

namespace Sys2Proof.Machine

/-- `NR(VAR)`: the number of rounds of a variant (spec/00_scope.md, R6). -/
def roundsOf : Variant → Nat
  | .feistel => Config.nrF
  | .laiMassey => Config.nrLM

/-- `CMDR.DIR` (spec/10_state.md, R33). -/
def State.dir (s : State) : Direction := dirOf s.cmdr

/-- `CMDR.VAR` (R33). -/
def State.var (s : State) : Variant := varOf s.cmdr

/-- `N` of the command in progress (R6). -/
def State.rounds (s : State) : Nat := roundsOf s.var

/-- The Left Half, `L = LBUF[0..8)` (R29). -/
def State.left (s : State) : Bytes 8 := halfOf s.lbuf

/-- The Right Half, `R = RBUF[0..8)` (R29). -/
def State.right (s : State) : Bytes 8 := halfOf s.rbuf

/-- `RK[i]` (R23). A register that is not built reads as a free value. DESIGN CHOICE, safe (notes/assumptions/5.md). -/
def State.roundKey (s : State) (i : Nat) : Bytes 32 :=
  if h : i < Config.nrMax then s.rk[i] else Config.absentRoundKey i

/-- The 4-bit code of a phase (R34, R99). -/
def phaseCode : Phase → BitVec 4
  | .idle => 0#4
  | .ksinit => 1#4
  | .kswk => 2#4
  | .ksrk => 3#4
  | .split => 4#4
  | .wha => 5#4
  | .whb => 6#4
  | .fl => 7#4
  | .fr => 8#4
  | .lmmix => 9#4
  | .lmsig => 10#4
  | .lmisig => 11#4
  | .merge => 12#4
  | .erase => 13#4

/-- The phase with a given code; the reserved codes 14 and 15 have none (R99, R100). -/
def phaseOfCode (c : BitVec 4) : Option Phase :=
  match c.toNat with
  | 0 => some .idle
  | 1 => some .ksinit
  | 2 => some .kswk
  | 3 => some .ksrk
  | 4 => some .split
  | 5 => some .wha
  | 6 => some .whb
  | 7 => some .fl
  | 8 => some .fr
  | 9 => some .lmmix
  | 10 => some .lmsig
  | 11 => some .lmisig
  | 12 => some .merge
  | 13 => some .erase
  | _ => none

/-- The key-schedule request of KSWK and KSRK: the master key and the counter after its increment (R72). -/
def scheduleRequest (s : State) : PrfRequest := { key := s.key, input := incLast s.ctr }

/-- The request of FL: `RK[RND]` and `RBUF` (R72). -/
def flRequest (s : State) : PrfRequest := { key := s.roundKey s.rnd.toNat, input := s.rbuf }

/-- The request of FR: `RK[RND + 1]` and `LBUF` (R72). -/
def frRequest (s : State) : PrfRequest := { key := s.roundKey (s.rnd.toNat + 1), input := s.lbuf }

/-- Combined, padded: what LMMIX writes to `CBUF` first (R184). -/
def combined (s : State) : Bytes 16 := pad16 (xorBytes s.left s.right)

/-- The request of LMMIX: `RK[RND]` and the Combined it forms (R72). -/
def lmmixRequest (s : State) : PrfRequest := { key := s.roundKey s.rnd.toNat, input := combined s }

/-- The request that the micro-operation in `PHASE` puts on the PRF port: five make one, no other does (R72). -/
def prfRequestOf (s : State) : Option PrfRequest :=
  match s.phase with
  | .kswk => some (scheduleRequest s)
  | .ksrk => some (scheduleRequest s)
  | .fl => some (flRequest s)
  | .fr => some (frRequest s)
  | .lmmix => some (lmmixRequest s)
  | .idle => none
  | .ksinit => none
  | .split => none
  | .wha => none
  | .whb => none
  | .lmsig => none
  | .lmisig => none
  | .merge => none
  | .erase => none

end Sys2Proof.Machine
end

