-- ==== Sys2Proof/Machine/Ops.lean ====
section
/-! DEFINITION. The operations the meanings share: the control transfer, the PRF port, the round-key file, START with the
exceptions it takes, the clearing of the key-bearing registers, reset, and the host's reads. -/

namespace Sys2Proof.Machine

/-! ### Control transfer and the PRF port -/

/-- `PHASE <- p`, `RND` unchanged (spec/00_scope.md, R12; spec/10_state.md, R40). -/
def State.goto (s : State) (p : Phase) : State := { s with phase := p }

/-- `RND <- r ; PHASE <- p` (R40). -/
def State.gotoRound (s : State) (p : Phase) (r : BitVec 8) : State := { s with phase := p, rnd := r }

/-- `POUT <- PRF(key, input)`: the request and its response within one step (spec/20_memory.md, R70, R75). The request is
no longer outstanding afterwards (R73). DEDUCED: fused as R75 permits; the unit always answers (notes/assumptions/4.md). -/
def State.callPrf (prf : Prf) (s : State) (r : PrfRequest) : State :=
  { s with pout := prf r.key r.input, prfReq := none }

/-- The request of the micro-operation in `PHASE`, if it makes one, is raised and held; no register changes (R73). -/
def holdRequest (s : State) : State :=
  match prfRequestOf s with
  | some r => { s with prfReq := some r }
  | none => s

/-! ### The round-key file -/

/-- `RK[RND] <- POUT` (spec/40_keyschedule.md, R123). A register that is not built is not written.
DESIGN CHOICE, unsafe off the commands' paths (notes/assumptions/5.md). -/
def State.storeRoundKey (s : State) : State :=
  if h : s.rnd.toNat < Config.nrMax then { s with rk := s.rk.set s.rnd.toNat s.pout } else s

/-! ### START and the exceptions it takes -/

/-- Taking an exception: a refused START records the offending word in `CMDR` and the code in `STATUS`, and nothing else
changes: no state is saved, no mode changes, control goes nowhere (spec/60_exceptions.md, R244, R245). -/
def takeException (e : CoreException) (cmdw : BitVec 32) (s : State) : State :=
  { s with cmdr := cmdw, status := statusOfException e }

/-- What ends an exception: there is no return instruction and nothing to restore, the next accepted START clears the record
with `STATUS <- {ERR = 0, DONE = 0, BUSY = 1}` (R247). The key and block on the ports are latched and the key schedule
begins (spec/44_commands.md, R200). -/
def acceptStart (cmdw : BitVec 32) (s : State) : State :=
  { s with
    cmdr := cmdw
    key := s.env.keyPort
    din := s.env.dinPort
    status := .busy
    rnd := 0#8
    phase := .ksinit }

/-- The lengths every command requires: KLEN = 32, ILEN = 16, OLEN = 16 (spec/30_encoding.md, R94). -/
def lengthsRight (klen ilen olen : Nat) : Bool :=
  decide (klen = 32) && decide (ilen = 16) && decide (olen = 16)

/-- START of a word that spells a command (R200): taken only while `PHASE = IDLE` (R77, R280); wrong lengths raise
SizeMismatch (R241), right ones start the command. -/
def startCommand (d : Direction) (v : Variant) (klen ilen olen : Nat) (s : State) : State :=
  if ready s then
    if lengthsRight klen ilen olen then acceptStart (commandWord d v klen ilen olen) s
    else takeException .sizeMismatch (commandWord d v klen ilen olen) s
  else s

/-- START of a word that spells no command: IllegalCommand while `PHASE = IDLE`, and no START at all otherwise; the lengths
are not looked at (R97, R200, R242, R243). -/
def startIllegal (cmdw : BitVec 32) (s : State) : State :=
  if ready s then takeException .illegalCommand cmdw s else s

/-! ### Clearing and reset -/

/-- The clearing of every register but `DOUT`, `CMDR`, `STATUS` and `PHASE` (spec/44_commands.md, R206). -/
def clearWorking (s : State) : State :=
  { s with
    key := zeroBytes 32
    din := zeroBytes 16
    ctr := zeroBytes 16
    wk := zeroBytes 32
    rk := Vector.replicate Config.nrMax (zeroBytes 32)
    lbuf := zeroBytes 16
    rbuf := zeroBytes 16
    cbuf := zeroBytes 16
    pout := zeroBytes 32
    rnd := 0#8 }

/-- Reset: one atomic step that puts every register at its reset value, in any phase, and drops an outstanding PRF request
(spec/70_reset_and_hazards.md, R270 to R272). The environment is not part of the core and stays. DEDUCED, safe
(notes/assumptions/13.md). -/
def resetCore (s : State) : State := { State.reset with env := s.env }

/-! ### The host's ports -/

/-- What a host read answers (R38). -/
def hostRead (r : HostReg) (s : State) : HostValue :=
  match r with
  | .status => .status (statusBits s.status)
  | .dout => .dout s.dout
  | .cmdr => .cmdr s.cmdr

/-- The host has read `r`: its own record grows, the core is untouched (R38, R67). -/
def State.afterRead (s : State) (r : HostReg) : State :=
  { s with env.seen := s.env.seen ++ [hostRead r s] }

/-- The event at the head of the script is over. -/
def State.withScript (s : State) (rest : List Event) : State := { s with env.script := rest }

/-- The host drives the key and data-in ports (R77). -/
def State.drivePorts (s : State) (key : Bytes 32) (din : Bytes 16) : State :=
  { s with env.keyPort := key, env.dinPort := din }

end Sys2Proof.Machine
end

