-- ==== Sys2Proof/Machine/Feistel.lean ====
section
/-! DEFINITION. feistel_round_engine (FRE): FL and FR (spec/42_feistel.md). -/

namespace Sys2Proof.Machine

/-- The successor of FL (R161). -/
def flNext (s : State) : State :=
  match s.dir with
  | .encrypt => s.goto .fr
  | .decrypt => if s.rnd = 0#8 then s.goto .wha else s.gotoRound .fr (s.rnd - 2#8)

/-- What FL does to the data: `L <- L ^ F(RK[RND], R)` (R161). -/
def flData (prf : Prf) (s : State) : State :=
  let s' := s.callPrf prf (flRequest s)
  { s' with lbuf := writeHalf s'.lbuf (xorBytes s'.left (trunc8 s'.pout)) }

/-- FL (R161). -/
def fl (prf : Prf) (s : State) : State := flNext (flData prf s)

/-- The successor of FR (R162). -/
def frNext (s : State) : State :=
  match s.dir with
  | .encrypt => if s.rnd.toNat + 2 = s.rounds then s.gotoRound .whb 0#8 else s.gotoRound .fl (s.rnd + 2#8)
  | .decrypt => s.goto .fl

/-- What FR does to the data: `R <- R ^ F(RK[RND + 1], L)` (R162). -/
def frData (prf : Prf) (s : State) : State :=
  let s' := s.callPrf prf (frRequest s)
  { s' with rbuf := writeHalf s'.rbuf (xorBytes s'.right (trunc8 s'.pout)) }

/-- FR (R162). -/
def fr (prf : Prf) (s : State) : State := frNext (frData prf s)

/-- The meaning of `FL`. -/
def execFl (s : State) : Host.Outcome State Fault Refusal := .next (fl Config.prf s)

/-- The meaning of `FR`. -/
def execFr (s : State) : Host.Outcome State Fault Refusal := .next (fr Config.prf s)

end Sys2Proof.Machine
end

