-- ==== Sys2Proof/Machine/KeySchedule.lean ====
section
/-! DEFINITION. keyschedule_expand_128_to_256 (KSX): KSINIT, KSWK, KSRK (spec/40_keyschedule.md). Each micro-operation is a
function of the PRF; `exec…` runs it with the PRF unit behind the port. -/

namespace Sys2Proof.Machine

/-- KSINIT (R121). -/
def ksinit (s : State) : State := { s with ctr := zeroBytes 16 }.goto .kswk

/-- KSWK (R122): the increment comes before the call, and all 32 bytes are kept. -/
def kswk (prf : Prf) (s : State) : State :=
  let s' := { s with ctr := incLast s.ctr }.callPrf prf (scheduleRequest s)
  { s' with wk := s'.pout }.gotoRound .ksrk 0#8

/-- The successor of KSRK (R123). Off the commands' paths the rule is read literally, here and in the other successors.
DESIGN CHOICE, unsafe in states no run reaches (notes/assumptions/6.md). -/
def ksrkNext (s : State) : State :=
  if s.rnd.toNat + 1 = s.rounds then s.gotoRound .split 0#8 else s.gotoRound .ksrk (s.rnd + 1#8)

/-- What KSRK does to the data: the increment, the call, `RK[RND] <- POUT` (R123). -/
def ksrkData (prf : Prf) (s : State) : State :=
  ({ s with ctr := incLast s.ctr }.callPrf prf (scheduleRequest s)).storeRoundKey

/-- KSRK (R123). -/
def ksrk (prf : Prf) (s : State) : State := ksrkNext (ksrkData prf s)

/-- The meaning of `KSINIT`. -/
def execKsinit (s : State) : Host.Outcome State Fault Refusal := .next (ksinit s)

/-- The meaning of `KSWK`. -/
def execKswk (s : State) : Host.Outcome State Fault Refusal := .next (kswk Config.prf s)

/-- The meaning of `KSRK`. -/
def execKsrk (s : State) : Host.Outcome State Fault Refusal := .next (ksrk Config.prf s)

end Sys2Proof.Machine
end

