-- ==== Sys2Proof/Machine/LaiMassey.lean ====
section
/-! DEFINITION. lai_massey_round_engine (LMRE): LMMIX, LMSIG, LMISIG (spec/43_lai_massey.md). -/

namespace Sys2Proof.Machine

/-- The successor of LMMIX (R184). -/
def lmmixNext (s : State) : State :=
  match s.dir with
  | .encrypt => if s.rnd.toNat + 1 = s.rounds then s.gotoRound .whb 0#8 else s.goto .lmsig
  | .decrypt => if s.rnd = 0#8 then s.goto .wha else s.gotoRound .lmisig (s.rnd - 1#8)

/-- What LMMIX does to the data: Combined, one PRF call, the same mixing value into both halves (R184). -/
def lmmixData (prf : Prf) (s : State) : State :=
  let s' := { s with cbuf := combined s }.callPrf prf (lmmixRequest s)
  { s' with
    lbuf := writeHalf s'.lbuf (xorBytes s'.left (trunc8 s'.pout))
    rbuf := writeHalf s'.rbuf (xorBytes s'.right (trunc8 s'.pout)) }

/-- LMMIX (R184). -/
def lmmix (prf : Prf) (s : State) : State := lmmixNext (lmmixData prf s)

/-- LMSIG (R185). -/
def lmsig (s : State) : State :=
  { s with lbuf := writeHalf s.lbuf (sigma s.left) }.gotoRound .lmmix (s.rnd + 1#8)

/-- LMISIG (R186). -/
def lmisig (s : State) : State := { s with lbuf := writeHalf s.lbuf (sigmaInv s.left) }.goto .lmmix

/-- The meaning of `LMMIX`. -/
def execLmmix (s : State) : Host.Outcome State Fault Refusal := .next (lmmix Config.prf s)

/-- The meaning of `LMSIG`. -/
def execLmsig (s : State) : Host.Outcome State Fault Refusal := .next (lmsig s)

/-- The meaning of `LMISIG`. -/
def execLmisig (s : State) : Host.Outcome State Fault Refusal := .next (lmisig s)

end Sys2Proof.Machine
end

