-- ==== Sys2Proof/Machine/Sequencer.lean ====
section
/-! DEFINITION. The four commands, each the START of its word (spec/44_commands.md, R200 to R204), and ERASE (R206). What a
command goes on to do is the micro-operations that START sets going. -/

namespace Sys2Proof.Machine

/-- ERASE (R206): DONE rises in the same step as the clearing. -/
def erase (s : State) : State := { clearWorking s with status := .done }.goto .idle

/-- The meaning of `ENC.F`: START of its word (R200, R201). -/
def execEncF (klen ilen olen : Nat) (s : State) : Host.Outcome State Fault Refusal :=
  .next (startCommand .encrypt .feistel klen ilen olen s)

/-- The meaning of `DEC.F`: START of its word (R200, R202). -/
def execDecF (klen ilen olen : Nat) (s : State) : Host.Outcome State Fault Refusal :=
  .next (startCommand .decrypt .feistel klen ilen olen s)

/-- The meaning of `ENC.LM`: START of its word (R200, R203). -/
def execEncLM (klen ilen olen : Nat) (s : State) : Host.Outcome State Fault Refusal :=
  .next (startCommand .encrypt .laiMassey klen ilen olen s)

/-- The meaning of `DEC.LM`: START of its word (R200, R204). -/
def execDecLM (klen ilen olen : Nat) (s : State) : Host.Outcome State Fault Refusal :=
  .next (startCommand .decrypt .laiMassey klen ilen olen s)

/-- The meaning of `ERASE`. -/
def execErase (s : State) : Host.Outcome State Fault Refusal := .next (erase s)

end Sys2Proof.Machine
end

