-- ==== Sys2Proof/Machine/SplitMerge.lean ====
section
/-! DEFINITION. block_split_merge_128 (BSM): SPLIT, WHA, WHB, MERGE (spec/41_block_split_merge.md). -/

namespace Sys2Proof.Machine

/-- What SPLIT does to the data: each half into its buffer, padded (R140). -/
def splitData (s : State) : State := { s with lbuf := pad16 (slice s.din 0 8), rbuf := pad16 (slice s.din 8 8) }

/-- The successor of SPLIT (R140). -/
def splitNext (s : State) : State :=
  match s.dir with
  | .encrypt => s.gotoRound .wha 0#8
  | .decrypt => s.gotoRound .whb 0#8

/-- SPLIT (R140). -/
def split (s : State) : State := splitNext (splitData s)

/-- Whitening with the sixteen bytes of `WK` from `off` on: eight into each half (R141, R142). -/
def whiten (off : Nat) (h : off + 16 ≤ 32) (s : State) : State :=
  { s with
    lbuf := writeHalf s.lbuf (xorBytes s.left (slice s.wk off 8 (by omega)))
    rbuf := writeHalf s.rbuf (xorBytes s.right (slice s.wk (off + 8) 8 (by omega))) }

/-- The successor of WHA (R141). -/
def whaNext (s : State) : State :=
  match s.dir, s.var with
  | .encrypt, .feistel => s.gotoRound .fl 0#8
  | .encrypt, .laiMassey => s.gotoRound .lmmix 0#8
  | .decrypt, _ => s.goto .merge

/-- WHA (R141). -/
def wha (s : State) : State := whaNext (whiten 0 (by decide) s)

/-- The successor of WHB (R142). -/
def whbNext (s : State) : State :=
  match s.dir, s.var with
  | .encrypt, _ => s.goto .merge
  | .decrypt, .feistel => s.gotoRound .fr (BitVec.ofNat 8 (s.rounds - 2))
  | .decrypt, .laiMassey => s.gotoRound .lmmix (BitVec.ofNat 8 (s.rounds - 1))

/-- WHB (R142). -/
def whb (s : State) : State := whbNext (whiten 16 (by decide) s)

/-- MERGE (R143). -/
def merge (s : State) : State := { s with dout := cat s.left s.right }.goto .erase

/-- The meaning of `SPLIT`. -/
def execSplit (s : State) : Host.Outcome State Fault Refusal := .next (split s)

/-- The meaning of `WHA`. -/
def execWha (s : State) : Host.Outcome State Fault Refusal := .next (wha s)

/-- The meaning of `WHB`. -/
def execWhb (s : State) : Host.Outcome State Fault Refusal := .next (whb s)

/-- The meaning of `MERGE`. -/
def execMerge (s : State) : Host.Outcome State Fault Refusal := .next (merge s)

end Sys2Proof.Machine
end

