-- ==== Sys2Proof/Machine/Dispatch.lean ====
section
/-! DEFINITION. One arm per row of spec/opcode_table.json, each one call of the row's meaning. -/

namespace Sys2Proof.Machine

def exec (i : Instr) (s : State) : Host.Outcome State Fault Refusal :=
  match i with
  -- the four commands (spec/44_commands.md)
  | .encF klen ilen olen => Sys2Proof.Machine.execEncF klen ilen olen s
  | .decF klen ilen olen => Sys2Proof.Machine.execDecF klen ilen olen s
  | .encLM klen ilen olen => Sys2Proof.Machine.execEncLM klen ilen olen s
  | .decLM klen ilen olen => Sys2Proof.Machine.execDecLM klen ilen olen s
  -- KSX (spec/40_keyschedule.md)
  | .ksinit => Sys2Proof.Machine.execKsinit s
  | .kswk => Sys2Proof.Machine.execKswk s
  | .ksrk => Sys2Proof.Machine.execKsrk s
  -- BSM (spec/41_block_split_merge.md)
  | .split => Sys2Proof.Machine.execSplit s
  | .wha => Sys2Proof.Machine.execWha s
  | .whb => Sys2Proof.Machine.execWhb s
  -- FRE (spec/42_feistel.md)
  | .fl => Sys2Proof.Machine.execFl s
  | .fr => Sys2Proof.Machine.execFr s
  -- LMRE (spec/43_lai_massey.md)
  | .lmmix => Sys2Proof.Machine.execLmmix s
  | .lmsig => Sys2Proof.Machine.execLmsig s
  | .lmisig => Sys2Proof.Machine.execLmisig s
  -- BSM and the sequencer
  | .merge => Sys2Proof.Machine.execMerge s
  | .erase => Sys2Proof.Machine.execErase s

end Sys2Proof.Machine
end

