-- ==== Sys2Proof/Machine/Fetch.lean ====
section
/-! DEFINITION. What one step does: which event comes next (spec/20_memory.md R77 to R80, spec/30_encoding.md R102) and which
instruction it runs. The core has no program counter and fetches nothing (R40, R83): a command comes in with the host's START,
a micro-operation is the one `PHASE` names (R34). -/

namespace Sys2Proof.Machine

/-- What a step has to do. -/
inductive Fetched where
  /-- Run the instruction on the state. -/
  | run (i : Instr) (s : State)
  /-- No instruction runs: this is the next state. -/
  | settled (s : State)
deriving DecidableEq, Repr

/-- The micro-operation in `PHASE`; at IDLE the core has no step of its own and the state stays (R34, R99). DESIGN CHOICE,
safe (notes/assumptions/7.md). -/
def fetchCore (s : State) : Fetched :=
  match decodePhase (phaseCode s.phase) with
  | .ok i => .run i s
  | .error _ => .settled s

/-- A START with the given command word (R96, R200). -/
def fetchStart (cmdw : BitVec 32) (s : State) : Fetched :=
  match decodeCommand cmdw with
  | .ok i => .run i s
  | .error _ => .settled (startIllegal cmdw s)

/-- One event, the rest of the script being `rest`. -/
def fetchEvent (e : Event) (rest : List Event) (s : State) : Fetched :=
  match e with
  | .reset => .settled (resetCore (s.withScript rest))
  | .start cmdw key din => fetchStart cmdw ((s.withScript rest).drivePorts key din)
  | .coreStep => fetchCore (s.withScript rest)
  | .wait => if ready s then .settled (s.withScript rest) else fetchCore s
  | .read r => .settled ((s.withScript rest).afterRead r)
  | .prfDelay => .settled (holdRequest (s.withScript rest))
  | .prfAnswer => if s.prfReq.isSome then fetchCore (s.withScript rest) else .settled (s.withScript rest)

/-- The next thing to happen: the script's first event, or, with no event to come, the core's own step. -/
def fetch (s : State) : Fetched :=
  match s.env.script with
  | [] => fetchCore s
  | e :: rest => fetchEvent e rest s

/-- The state in which the next step is the START of the word `cmdw` with the key and block now on the ports. -/
def placeCommand (cmdw : BitVec 32) (s : State) : State :=
  { s with
    phase := .idle
    env.script := .start cmdw s.env.keyPort s.env.dinPort :: s.env.script }

/-- The state in which the next step is the micro-operation with the code `c`. An empty script lets the core run already. -/
def placePhase (c : BitVec 4) (s : State) : State :=
  match phaseOfCode c, s.env.script with
  | none, _ => s
  | some p, [] => { s with phase := p }
  | some p, e :: rest => { s with phase := p, env.script := .coreStep :: e :: rest }

/-- The state in which the next step runs what `c` encodes. -/
def placeCode (c : Code) (s : State) : State :=
  match c with
  | .command w => placeCommand w s
  | .phase p => placePhase p s

end Sys2Proof.Machine
end

