-- ==== Sys2Proof/Machine/Cipher.lean ====
section
/-! DEFINITION. The functional view of a command (spec/44_commands.md, R208): the key schedule, the two networks and the four
pure functions, written from the spec's own pure forms and loops, apart from the machine. A round-key table is a function of
the round index, and every function takes the PRF as its first argument (spec/00_scope.md, R7). -/

namespace Sys2Proof.Machine

/-- `W` of the key schedule: `prf(K, ctr(1))`, all 32 bytes (spec/40_keyschedule.md, R120). -/
def scheduleWk (prf : Prf) (key : Bytes 32) : Bytes 32 := prf key (counterBlock 1)

/-- `RK[i]` of the key schedule: `prf(K, ctr(2 + i))` (R120). -/
def scheduleRk (prf : Prf) (key : Bytes 32) (i : Nat) : Bytes 32 := prf key (counterBlock (2 + i))

/-- `Split(B)` (spec/41_block_split_merge.md, R146). -/
def splitBlock (b : Bytes 16) : Bytes 8 × Bytes 8 := (slice b 0 8, slice b 8 8)

/-- `Merge(L, R)` (R146). -/
def mergeHalves (h : Bytes 8 × Bytes 8) : Bytes 16 := cat h.1 h.2

/-- `WhitenA(L, R, W)` (R146). -/
def whitenA (w : Bytes 32) (h : Bytes 8 × Bytes 8) : Bytes 8 × Bytes 8 :=
  (xorBytes h.1 (slice w 0 8), xorBytes h.2 (slice w 8 8))

/-- `WhitenB(L, R, W)` (R146). -/
def whitenB (w : Bytes 32) (h : Bytes 8 × Bytes 8) : Bytes 8 × Bytes 8 :=
  (xorBytes h.1 (slice w 16 8), xorBytes h.2 (slice w 24 8))

/-- The round function `F(k, H) = trunc8(prf(k, pad16(H)))` (spec/42_feistel.md, R160). -/
def roundF (prf : Prf) (k : Bytes 32) (h : Bytes 8) : Bytes 8 := trunc8 (prf k (pad16 h))

/-- The step `L <- L ^ F(RK[i], R)` (R163). -/
def feistelLeft (prf : Prf) (rk : Nat → Bytes 32) (i : Nat) (h : Bytes 8 × Bytes 8) : Bytes 8 × Bytes 8 :=
  (xorBytes h.1 (roundF prf (rk i) h.2), h.2)

/-- The step `R <- R ^ F(RK[i], L)` (R163). -/
def feistelRight (prf : Prf) (rk : Nat → Bytes 32) (i : Nat) (h : Bytes 8 × Bytes 8) : Bytes 8 × Bytes 8 :=
  (h.1, xorBytes h.2 (roundF prf (rk i) h.1))

/-- The body of the encrypt loop: the pair of rounds `i`, `i + 1` (R163). -/
def feistelEncPair (prf : Prf) (rk : Nat → Bytes 32) (h : Bytes 8 × Bytes 8) (i : Nat) : Bytes 8 × Bytes 8 :=
  feistelRight prf rk (i + 1) (feistelLeft prf rk i h)

/-- The body of the decrypt loop: the pair's second round is undone first (R164). -/
def feistelDecPair (prf : Prf) (rk : Nat → Bytes 32) (h : Bytes 8 × Bytes 8) (i : Nat) : Bytes 8 × Bytes 8 :=
  feistelLeft prf rk i (feistelRight prf rk (i + 1) h)

/-- The indices `0, 2, …, n - 2` of the pairs (R163), for an even `n`. The spec refuses an odd count (R6, R166) and gives the
loops no meaning at one; there this list has `n / 2` pairs, so that round `n - 1` is left out and `rk n` is not read.
DESIGN CHOICE, unsafe at odd `n` only (notes/assumptions/15.md). -/
def pairIndices (n : Nat) : List Nat := (List.range (n / 2)).map (2 * ·)

/-- `FeistelEnc(L, R, RK)` with `n` rounds, `n` even: for `i = 0, 2, …, n - 2` (R163; odd `n`: `pairIndices`). -/
def feistelEnc (prf : Prf) (rk : Nat → Bytes 32) (n : Nat) (h : Bytes 8 × Bytes 8) : Bytes 8 × Bytes 8 :=
  (pairIndices n).foldl (feistelEncPair prf rk) h

/-- `FeistelDec(L, R, RK)` with `n` rounds, `n` even: for `i = n - 2, …, 2, 0` (R164; odd `n`: `pairIndices`). -/
def feistelDec (prf : Prf) (rk : Nat → Bytes 32) (n : Nat) (h : Bytes 8 × Bytes 8) : Bytes 8 × Bytes 8 :=
  (pairIndices n).reverse.foldl (feistelDecPair prf rk) h

/-- The mixing step of a Lai-Massey round: `M = trunc8(prf(RK[i], pad16(L ^ R)))` into both halves
(spec/43_lai_massey.md, R187). -/
def lmMixHalves (prf : Prf) (rk : Nat → Bytes 32) (i : Nat) (h : Bytes 8 × Bytes 8) : Bytes 8 × Bytes 8 :=
  (xorBytes h.1 (roundF prf (rk i) (xorBytes h.1 h.2)), xorBytes h.2 (roundF prf (rk i) (xorBytes h.1 h.2)))

/-- The body of the encrypt loop of `n` rounds: the mix, then `sigma` on the Left Half unless this is the last round
(R187). -/
def lmEncRound (prf : Prf) (rk : Nat → Bytes 32) (n : Nat) (h : Bytes 8 × Bytes 8) (i : Nat) : Bytes 8 × Bytes 8 :=
  let m := lmMixHalves prf rk i h
  if i ≠ n - 1 then (sigma m.1, m.2) else m

/-- The body of the decrypt loop of `n` rounds: `sigma_inv` on the Left Half unless this is the first round run, then the mix
(R188). -/
def lmDecRound (prf : Prf) (rk : Nat → Bytes 32) (n : Nat) (h : Bytes 8 × Bytes 8) (i : Nat) : Bytes 8 × Bytes 8 :=
  lmMixHalves prf rk i (if i ≠ n - 1 then (sigmaInv h.1, h.2) else h)

/-- `LMEnc(L, R, RK)` with `n` rounds: for `i = 0, 1, …, n - 1` (R187). -/
def lmEnc (prf : Prf) (rk : Nat → Bytes 32) (n : Nat) (h : Bytes 8 × Bytes 8) : Bytes 8 × Bytes 8 :=
  (List.range n).foldl (lmEncRound prf rk n) h

/-- `LMDec(L, R, RK)` with `n` rounds: for `i = n - 1, …, 0` (R188). -/
def lmDec (prf : Prf) (rk : Nat → Bytes 32) (n : Nat) (h : Bytes 8 × Bytes 8) : Bytes 8 × Bytes 8 :=
  (List.range n).reverse.foldl (lmDecRound prf rk n) h

/-- The rounds of a command of the given direction and variant (R163, R164, R187, R188). -/
def cipherRounds (prf : Prf) (d : Direction) (v : Variant) (rk : Nat → Bytes 32) :
    Bytes 8 × Bytes 8 → Bytes 8 × Bytes 8 :=
  match d, v with
  | .encrypt, .feistel => feistelEnc prf rk Config.nrF
  | .decrypt, .feistel => feistelDec prf rk Config.nrF
  | .encrypt, .laiMassey => lmEnc prf rk Config.nrLM
  | .decrypt, .laiMassey => lmDec prf rk Config.nrLM

/-- `Encrypt_v(K, P)` and `Decrypt_v(K, C)`: the *Result* parts of R201 to R204 (R208). -/
def cipher (prf : Prf) (d : Direction) (v : Variant) (key : Bytes 32) (b : Bytes 16) : Bytes 16 :=
  let w := scheduleWk prf key
  let rk := scheduleRk prf key
  match d with
  | .encrypt => mergeHalves (whitenB w (cipherRounds prf d v rk (whitenA w (splitBlock b))))
  | .decrypt => mergeHalves (whitenA w (cipherRounds prf d v rk (whitenB w (splitBlock b))))

end Sys2Proof.Machine
end

