-- ==== Sys2Proof/Safety.lean ====
section
/-! DEFINITION. The terms in which the claims speak: the parts of the state that a rule may write, the invariants that the
spec states of every point between steps, what the environment may not learn from, and the core's own run. -/

namespace Sys2Proof.Machine

/-! ### Frames -/

/-- A part of the state that some rule writes and others leave (spec/20_memory.md, R64, R66): the registers of R22, `CTR`
taken apart at byte 15 and the padded buffers at byte 8, and the PRF port. -/
inductive Part where
  | key
  | din
  | dout
  | ctrHead
  | ctrLast
  | wk
  | rk (i : Fin Config.nrMax)
  | left
  | leftPad
  | right
  | rightPad
  | cbuf
  | pout
  | cmdr
  | phase
  | rnd
  | status
  | prfPort
deriving DecidableEq, Repr

/-- The part `p` holds the same in `s` and `t`. -/
def Part.same (p : Part) (s t : State) : Prop :=
  match p with
  | .key => t.key = s.key
  | .din => t.din = s.din
  | .dout => t.dout = s.dout
  | .ctrHead => slice t.ctr 0 15 = slice s.ctr 0 15
  | .ctrLast => t.ctr[15] = s.ctr[15]
  | .wk => t.wk = s.wk
  | .rk i => t.rk[i] = s.rk[i]
  | .left => t.left = s.left
  | .leftPad => slice t.lbuf 8 8 = slice s.lbuf 8 8
  | .right => t.right = s.right
  | .rightPad => slice t.rbuf 8 8 = slice s.rbuf 8 8
  | .cbuf => t.cbuf = s.cbuf
  | .pout => t.pout = s.pout
  | .cmdr => t.cmdr = s.cmdr
  | .phase => t.phase = s.phase
  | .rnd => t.rnd = s.rnd
  | .status => t.status = s.status
  | .prfPort => t.prfReq = s.prfReq

/-- Nothing but the listed parts differs between `s` and `t`, and the environment is the same. -/
def OnlyChanges (parts : List Part) (s t : State) : Prop :=
  (∀ p, p ∉ parts → p.same s t) ∧ t.env = s.env

/-- What each instruction writes, the *written by* column of R22 with the widths of R66. A micro-operation that calls the PRF
also ends its request on the port (R73). -/
def writesOf (i : Instr) (s : State) : List Part :=
  match i with
  | .encF _ _ _ => [.key, .din, .cmdr, .status, .rnd, .phase]
  | .decF _ _ _ => [.key, .din, .cmdr, .status, .rnd, .phase]
  | .encLM _ _ _ => [.key, .din, .cmdr, .status, .rnd, .phase]
  | .decLM _ _ _ => [.key, .din, .cmdr, .status, .rnd, .phase]
  | .ksinit => [.ctrHead, .ctrLast, .phase]
  | .kswk => [.ctrLast, .pout, .wk, .rnd, .phase, .prfPort]
  | .ksrk =>
    [.ctrLast, .pout, .rnd, .phase, .prfPort] ++
      (if h : s.rnd.toNat < Config.nrMax then [.rk ⟨s.rnd.toNat, h⟩] else [])
  | .split => [.left, .leftPad, .right, .rightPad, .rnd, .phase]
  | .wha => [.left, .right, .rnd, .phase]
  | .whb => [.left, .right, .rnd, .phase]
  | .fl => [.pout, .left, .rnd, .phase, .prfPort]
  | .fr => [.pout, .right, .rnd, .phase, .prfPort]
  | .lmmix => [.cbuf, .pout, .left, .right, .rnd, .phase, .prfPort]
  | .lmsig => [.left, .rnd, .phase]
  | .lmisig => [.left, .phase]
  | .merge => [.dout, .phase]
  | .erase =>
    [.key, .din, .ctrHead, .ctrLast, .wk, .left, .leftPad, .right, .rightPad, .cbuf, .pout, .rnd, .status, .phase] ++
      (List.finRange Config.nrMax).map .rk

/-! ### Invariants -/

/-- The padding of the three buffers is zero (spec/10_state.md, R30). -/
def Padded (s : State) : Prop :=
  slice s.lbuf 8 8 = zeroBytes 8 ∧ slice s.rbuf 8 8 = zeroBytes 8 ∧ slice s.cbuf 8 8 = zeroBytes 8

/-- `STATUS.BUSY = (PHASE != IDLE)` (R34, R36). -/
def StatusAgrees (s : State) : Prop := statusBusy s.status = true ↔ s.phase ≠ .idle

/-- Every register except `DOUT`, `CMDR`, `STATUS` and `PHASE` is zero (R44, R215). -/
def Cleared (s : State) : Prop :=
  s.key = zeroBytes 32 ∧ s.din = zeroBytes 16 ∧ s.ctr = zeroBytes 16 ∧ s.wk = zeroBytes 32 ∧
  (∀ i : Fin Config.nrMax, s.rk[i] = zeroBytes 32) ∧ s.lbuf = zeroBytes 16 ∧ s.rbuf = zeroBytes 16 ∧
  s.cbuf = zeroBytes 16 ∧ s.pout = zeroBytes 32 ∧ s.rnd = 0#8

/-- `(PHASE, RND, DIR, VAR)` is one of the combinations on the paths of the four commands (R35, R205; U8). -/
def OnPath (s : State) : Prop :=
  match s.phase with
  | .idle => s.rnd = 0#8
  | .ksinit => s.rnd = 0#8
  | .kswk => s.rnd = 0#8
  | .ksrk => s.rnd.toNat < s.rounds
  | .split => s.rnd = 0#8
  | .wha => s.rnd = 0#8
  | .whb => s.rnd = 0#8
  | .fl => s.var = .feistel ∧ s.rnd.toNat % 2 = 0 ∧ s.rnd.toNat < s.rounds
  | .fr => s.var = .feistel ∧ s.rnd.toNat % 2 = 0 ∧ s.rnd.toNat < s.rounds
  | .lmmix => s.var = .laiMassey ∧ s.rnd.toNat < s.rounds
  | .lmsig => s.var = .laiMassey ∧ s.dir = .encrypt ∧ s.rnd.toNat + 1 < s.rounds
  | .lmisig => s.var = .laiMassey ∧ s.dir = .decrypt ∧ s.rnd.toNat + 1 < s.rounds
  | .merge => s.rnd = 0#8
  | .erase => s.rnd = 0#8

/-- How many derivation calls of the command in progress are behind it, by phase (spec/40_keyschedule.md, R122, R123). -/
def derivations (s : State) : Nat :=
  match s.phase with
  | .idle => 0
  | .ksinit => 0
  | .kswk => 0
  | .ksrk => s.rnd.toNat + 1
  | .split => s.rounds + 1
  | .wha => s.rounds + 1
  | .whb => s.rounds + 1
  | .fl => s.rounds + 1
  | .fr => s.rounds + 1
  | .lmmix => s.rounds + 1
  | .lmsig => s.rounds + 1
  | .lmisig => s.rounds + 1
  | .merge => s.rounds + 1
  | .erase => s.rounds + 1

/-- `CTR = zero(15) || [derivations so far]` (spec/10_state.md R27; spec/40_keyschedule.md R123, R124). -/
def CounterCounts (s : State) : Prop := s.ctr = counterBlock (derivations s)

/-- What has been derived so far is the key schedule of `KEY` (R120, R124): `WK` after the first derivation, `RK[i]` after
derivation `i + 2`. -/
def KeysDerived (s : State) : Prop :=
  (1 ≤ derivations s → s.wk = scheduleWk Config.prf s.key) ∧
  ∀ i : Fin Config.nrMax, i.val + 2 ≤ derivations s → s.rk[i] = scheduleRk Config.prf s.key i.val

/-- What the command's variant does not use stays zero: `RK[N..]` (spec/10_state.md R23), and `CBUF` for variant F (R31). -/
def UnusedZero (s : State) : Prop :=
  (∀ i : Fin Config.nrMax, s.rounds ≤ i.val → s.rk[i] = zeroBytes 32) ∧
  (s.var = .feistel → s.cbuf = zeroBytes 16)

/-- A request is outstanding only for the micro-operation in `PHASE`, and is held at that micro-operation's key and input
(spec/20_memory.md, R72, R73). -/
def PortHolds (s : State) : Prop := ∀ r, s.prfReq = some r → prfRequestOf s = some r

/-- What the spec states of every point between two steps, together. -/
structure Inv (s : State) : Prop where
  padded : Padded s
  statusAgrees : StatusAgrees s
  erased : s.phase = .idle → Cleared s
  onPath : OnPath s
  counterCounts : CounterCounts s
  keysDerived : KeysDerived s
  unusedZero : UnusedZero s
  portHolds : PortHolds s

/-! ### Control and data -/

/-- The event without its key and block. -/
def Event.shape : Event → Event
  | .reset => .reset
  | .start cmdw _ _ => .start cmdw (zeroBytes 32) (zeroBytes 16)
  | .coreStep => .coreStep
  | .wait => .wait
  | .read r => .read r
  | .prfDelay => .prfDelay
  | .prfAnswer => .prfAnswer

/-- `s` and `t` agree on all that is not key or data: `PHASE`, `RND`, `CMDR`, `STATUS`, whether a PRF request is outstanding,
and the events to come but for the keys and blocks they present (spec/44_commands.md, R213). -/
def SameControl (s t : State) : Prop :=
  s.phase = t.phase ∧ s.rnd = t.rnd ∧ s.cmdr = t.cmdr ∧ s.status = t.status ∧
  s.prfReq.isSome = t.prfReq.isSome ∧ s.env.script.map Event.shape = t.env.script.map Event.shape

/-- The row of the next-phase table for `(PHASE, RND, DIR, VAR)` with `n = NR(VAR)` (R205). IDLE stays, as no START is a
micro-operation. -/
def nextPhase (p : Phase) (r : Nat) (d : Direction) (v : Variant) : Phase × Nat :=
  let n := roundsOf v
  match p, d, v with
  | .idle, _, _ => (.idle, r)
  | .ksinit, _, _ => (.kswk, r)
  | .kswk, _, _ => (.ksrk, 0)
  | .ksrk, _, _ => if r < n - 1 then (.ksrk, r + 1) else (.split, 0)
  | .split, .encrypt, _ => (.wha, 0)
  | .split, .decrypt, _ => (.whb, 0)
  | .wha, .encrypt, .feistel => (.fl, 0)
  | .wha, .encrypt, .laiMassey => (.lmmix, 0)
  | .wha, .decrypt, _ => (.merge, r)
  | .whb, .encrypt, _ => (.merge, r)
  | .whb, .decrypt, .feistel => (.fr, n - 2)
  | .whb, .decrypt, .laiMassey => (.lmmix, n - 1)
  | .fl, .encrypt, _ => (.fr, r)
  | .fl, .decrypt, _ => if 0 < r then (.fr, r - 2) else (.wha, r)
  | .fr, .encrypt, _ => if r + 2 < n then (.fl, r + 2) else (.whb, 0)
  | .fr, .decrypt, _ => (.fl, r)
  | .lmmix, .encrypt, _ => if r < n - 1 then (.lmsig, r) else (.whb, 0)
  | .lmmix, .decrypt, _ => if 0 < r then (.lmisig, r - 1) else (.wha, r)
  | .lmsig, _, _ => (.lmmix, r + 1)
  | .lmisig, _, _ => (.lmmix, r)
  | .merge, _, _ => (.erase, r)
  | .erase, _, _ => (.idle, 0)

/-! ### Runs -/

/-- `n` steps, stopping at the first fault or refusal (`Host.Core.run` of this machine, its types written out). -/
def runSteps : Nat → State → Host.Outcome State Fault Refusal
  | 0, s => .next s
  | n + 1, s =>
    match step s with
    | .next t => runSteps n t
    | .fault r => .fault r
    | .refused r => .refused r

/-- The phases of the next `n` steps. -/
def phaseTrace : Nat → State → List Phase
  | 0, _ => []
  | n + 1, s =>
    match step s with
    | .next t => s.phase :: phaseTrace n t
    | .fault _ => [s.phase]
    | .refused _ => [s.phase]

/-- The PRF requests of the next `n` steps of a core that runs by itself (spec/20_memory.md, R72, R76). -/
def requestTrace : Nat → State → List PrfRequest
  | 0, _ => []
  | n + 1, s =>
    match step s with
    | .next t => (prfRequestOf s).toList ++ requestTrace n t
    | .fault _ => (prfRequestOf s).toList
    | .refused _ => (prfRequestOf s).toList

/-- The number of micro-operations of a command after its START (spec/44_commands.md R201 to R204). -/
def commandSteps : Variant → Nat
  | .feistel => 23
  | .laiMassey => 24

/-- The state a completed command leaves (R206, R209): `DOUT` the result, `CMDR` the word, `STATUS = 0b0010`, every other
register zero, and an environment `env`. -/
def afterCommand (cmdw : BitVec 32) (out : Bytes 16) (env : Env) : State :=
  { State.reset with dout := out, cmdr := cmdw, status := .done, env := env }

end Sys2Proof.Machine
end

