-- ==== Sys2Proof/Certificates/Slice0/Obligations.lean ====
section
/-! DEFINITION. The statements for the provers, file by file of spec/. What each says in words, the rules it cites and its
tier stand in OBLIGATIONS.json.

What is the model's choice in them, by its row of notes/assumptions/: the environment in State (2), the waiting and stray
answers of the PRF unit (4), a round-key register that is not built (5), a micro-operation off the paths of the commands read
literally (6), the step of an idle core (7), the pure Feistel loops at an odd count, which the spec refuses (15). -/

open Sys2Proof Sys2Proof.Machine

/-! ### spec/00_scope.md: the configuration -/

/-- R6: the three counts, `N` of each variant, the configuration check clause by clause, and this core passes it; an odd
Feistel count never does. -/
def Obligations.ConfigurationCheckIsRuleSix : Prop :=
  Config.rounds = { nrF := 8, nrLM := 6, nrMax := 8 } ∧ roundsOf .feistel = 8 ∧ roundsOf .laiMassey = 6 ∧
  (∀ c : RoundCounts, c.wellFormed = true ↔
    (2 ∣ c.nrF ∧ 2 ≤ c.nrF ∧ 1 ≤ c.nrLM ∧ c.nrF ≤ c.nrMax ∧ c.nrLM ≤ c.nrMax ∧ c.nrMax ≤ 254)) ∧
  Config.rounds.wellFormed = true ∧ ∀ c : RoundCounts, Odd c.nrF → c.wellFormed = false

/-! ### spec/30_encoding.md: decode and encode -/

/-- Decoding what is encoded gives it back, for every well-formed instruction and every value of its fields. -/
def Obligations.DecodeOfEncodeIsTheInstruction : Prop :=
  ∀ i : Instr, i.wellFormed = true → decode (encode i) = .ok i

/-- A word or code that decodes is the encoding of what it decodes to: no bit of it is dropped. -/
def Obligations.DecodedCodeIsItsEncoding : Prop :=
  ∀ (c : Code) (i : Instr), decode c = .ok i → i.wellFormed = true ∧ encode i = c

/-- R96: the three verdicts on a command word, by its bits. -/
def Obligations.CommandWordVerdicts : Prop :=
  ∀ w : BitVec 32,
    (w.extractLsb' 2 6 ≠ 0#6 → decodeCommand w = .error (.illegalCommand w)) ∧
    (w.extractLsb' 2 6 = 0#6 →
      decodeCommand w = .ok
        (commandOf (if w.getLsbD 0 then .decrypt else .encrypt) (if w.getLsbD 1 then .laiMassey else .feistel)
          (w.extractLsb' 8 8).toNat (w.extractLsb' 16 8).toNat (w.extractLsb' 24 8).toNat))

/-- A few words written out from R95 and codes from R99 decode to the instructions they stand for. -/
def Obligations.WordsOfTheTableDecode : Prop :=
  decodeCommand 0x10102000#32 = .ok (.encF 32 16 16) ∧
  decodeCommand 0x10102001#32 = .ok (.decF 32 16 16) ∧
  decodeCommand 0x10102002#32 = .ok (.encLM 32 16 16) ∧
  decodeCommand 0x10102003#32 = .ok (.decLM 32 16 16) ∧
  decodeCommand 0x100F2000#32 = .ok (.encF 32 15 16) ∧
  decodeCommand 0x10102004#32 = .error (.illegalCommand 0x10102004#32) ∧
  decodePhase 0b0001#4 = .ok .ksinit ∧ decodePhase 0b0111#4 = .ok .fl ∧
  decodePhase 0b1010#4 = .ok .lmsig ∧ decodePhase 0b1101#4 = .ok .erase ∧
  decodePhase 0b1110#4 = .error (.reservedPhase 0b1110#4)

/-! ### spec/44_commands.md and spec/60_exceptions.md: START and its exceptions -/

/-- R200: what a START does, whatever the word, in any state. (The event and the ports in `env`: notes/assumptions/2.md.) -/
def Obligations.StartValidatesThenLatches : Prop :=
  ∀ (s : State) (w : BitVec 32) (k : Bytes 32) (d : Bytes 16) (rest : List Event),
    s.env.script = .start w k d :: rest →
    let u : State := { s with env := { s.env with script := rest, keyPort := k, dinPort := d } }
    step s = .next
      (if s.phase ≠ .idle then u
       else if w.extractLsb' 2 6 ≠ 0#6 then { u with cmdr := w, status := .illegalCommand }
       else if w.extractLsb' 8 8 ≠ 32#8 ∨ w.extractLsb' 16 8 ≠ 16#8 ∨ w.extractLsb' 24 8 ≠ 16#8 then
         { u with cmdr := w, status := .sizeMismatch }
       else { u with cmdr := w, key := k, din := d, status := .busy, rnd := 0#8, phase := .ksinit })

/-- R280: a START presented while a command runs changes no register and no request; only the host's own wires and script
move on (notes/assumptions/2.md). -/
def Obligations.StartWhileBusyLeavesNoTrace : Prop :=
  ∀ (s t : State) (w : BitVec 32) (k : Bytes 32) (d : Bytes 16) (rest : List Event),
    s.env.script = .start w k d :: rest → s.phase ≠ .idle → step s = .next t →
    { t with env := s.env } = s

/-- R95, R200: each command with the valid lengths is accepted by an idle core. -/
def Obligations.CommandsAreAcceptedWhenIdle : Prop :=
  ∀ s : State, s.phase = .idle →
    let started (w : BitVec 32) : State :=
      { s with
        cmdr := w, key := s.env.keyPort, din := s.env.dinPort, status := .busy, rnd := 0#8, phase := .ksinit }
    exec (.encF 32 16 16) s = .next (started 0x10102000#32) ∧
    exec (.decF 32 16 16) s = .next (started 0x10102001#32) ∧
    exec (.encLM 32 16 16) s = .next (started 0x10102002#32) ∧
    exec (.decLM 32 16 16) s = .next (started 0x10102003#32)

/-- R212: a command with a wrong length changes `CMDR` and `STATUS` only. -/
def Obligations.WrongLengthsRaiseSizeMismatch : Prop :=
  ∀ (s : State) (d : Direction) (v : Variant) (k i o : Nat),
    s.phase = .idle → (commandOf d v k i o).wellFormed = true → ¬(k = 32 ∧ i = 16 ∧ o = 16) →
    ∃ w, encode (commandOf d v k i o) = .command w ∧
      exec (commandOf d v k i o) s = .next { s with cmdr := w, status := .sizeMismatch }

/-- R243: a word that is wrong in both ways is reported as IllegalCommand; the level output `err` rises (R250). -/
def Obligations.IllegalCommandWinsOverSizeMismatch : Prop :=
  ∀ (s : State) (w : BitVec 32) (k : Bytes 32) (d : Bytes 16) (rest : List Event),
    s.env.script = .start w k d :: rest → s.phase = .idle → w.extractLsb' 2 6 ≠ 0#6 →
    ∃ t, step s = .next t ∧ t.cmdr = w ∧ statusBits t.status = 0b1000#4 ∧ errOut t = true ∧ doneOut t = false ∧
      t.phase = .idle ∧ ∀ p : Part, p ≠ .cmdr → p ≠ .status → p.same s t

/-! ### spec/40_keyschedule.md: KSX -/

/-- R121. -/
def Obligations.KsinitClearsTheCounter : Prop :=
  ∀ s : State, ∃ t, exec .ksinit s = .next t ∧ (∀ i (h : i < 16), t.ctr[i] = 0#8) ∧ t.phase = .kswk ∧
    OnlyChanges [.ctrHead, .ctrLast, .phase] s t ∧
    (s.ctr = zeroBytes 16 → OnlyChanges [.phase] s t)

/-- R122. -/
def Obligations.KswkDerivesTheWhitening : Prop :=
  ∀ s : State, ∃ t, exec .kswk s = .next t ∧
    (t.ctr[15].toNat = (s.ctr[15].toNat + 1) % 256 ∧ ∀ i (h : i < 15), t.ctr[i] = s.ctr[i]) ∧
    t.pout = Config.prf s.key t.ctr ∧ t.wk = t.pout ∧ t.rnd = 0#8 ∧ t.phase = .ksrk ∧
    OnlyChanges [.ctrLast, .pout, .wk, .rnd, .phase, .prfPort] s t

/-- R123; it completes in every state, and writes `RK[RND]` when that register is built. Where it is not, and off the paths,
the model's choice: notes/assumptions/5.md, 6.md. -/
def Obligations.KsrkDerivesARoundKey : Prop :=
  ∀ s : State, ∃ t, exec .ksrk s = .next t ∧
    (t.ctr[15].toNat = (s.ctr[15].toNat + 1) % 256 ∧ ∀ i (h : i < 15), t.ctr[i] = s.ctr[i]) ∧
    t.pout = Config.prf s.key t.ctr ∧ (∀ h : s.rnd.toNat < Config.nrMax, t.rk[s.rnd.toNat] = t.pout) ∧
    (s.rnd.toNat = s.rounds - 1 → t.rnd = 0#8 ∧ t.phase = .split) ∧
    (s.rnd.toNat ≠ s.rounds - 1 → t.rnd = s.rnd + 1#8 ∧ t.phase = .ksrk) ∧
    OnlyChanges (writesOf .ksrk s) s t

/-- R124: the registers after the whole key schedule, from any state that begins it. -/
def Obligations.ScheduleRunFillsTheKeyRegisters : Prop :=
  ∀ s : State, s.phase = .ksinit → s.env.script = [] →
    ∃ t, runSteps (s.rounds + 2) s = .next t ∧ t.phase = .split ∧ t.rnd = 0#8 ∧
      t.ctr = counterBlock (s.rounds + 1) ∧ t.wk = Config.prf s.key (counterBlock 1) ∧
      (∀ i : Fin Config.nrMax, t.rk[i] =
        if i.val < s.rounds then Config.prf s.key (counterBlock (2 + i.val)) else s.rk[i]) ∧
      t.pout = Config.prf s.key (counterBlock (s.rounds + 1)) ∧
      OnlyChanges ([.ctrHead, .ctrLast, .wk, .pout, .rnd, .phase, .prfPort] ++
        (List.finRange Config.nrMax).map .rk) s t

/-- R127, on the machine: a Feistel schedule and a Lai-Massey schedule under one master key leave the same `WK` and the same
first six round keys. -/
def Obligations.VariantsShareTheFirstRoundKeys : Prop :=
  ∀ s₁ s₂ t₁ t₂ : State, s₁.phase = .ksinit → s₁.env.script = [] → s₂.phase = .ksinit → s₂.env.script = [] →
    s₁.var = .feistel → s₂.var = .laiMassey → s₁.key = s₂.key →
    runSteps 10 s₁ = .next t₁ → runSteps 8 s₂ = .next t₂ →
    t₁.wk = t₂.wk ∧ ∀ i : Fin Config.nrMax, i.val < 6 → t₁.rk[i] = t₂.rk[i]

/-! ### spec/41_block_split_merge.md: BSM -/

/-- R140. -/
def Obligations.SplitMakesPaddedHalves : Prop :=
  ∀ s : State, ∃ t, exec .split s = .next t ∧
    (∀ i (h : i < 8), t.lbuf[i] = s.din[i] ∧ t.rbuf[i] = s.din[8 + i] ∧ t.lbuf[8 + i] = 0#8 ∧ t.rbuf[8 + i] = 0#8) ∧
    t.rnd = 0#8 ∧ (s.dir = .encrypt → t.phase = .wha) ∧ (s.dir = .decrypt → t.phase = .whb) ∧
    OnlyChanges [.left, .leftPad, .right, .rightPad, .rnd, .phase] s t

/-- R141. -/
def Obligations.WhaWhitensWithTheFirstSixteen : Prop :=
  ∀ s : State, ∃ t, exec .wha s = .next t ∧
    (∀ i (h : i < 8), t.lbuf[i] = s.lbuf[i] ^^^ s.wk[i] ∧ t.rbuf[i] = s.rbuf[i] ^^^ s.wk[8 + i]) ∧
    (s.dir = .encrypt → t.rnd = 0#8 ∧ t.phase = if s.var = .feistel then .fl else .lmmix) ∧
    (s.dir = .decrypt → t.rnd = s.rnd ∧ t.phase = .merge) ∧
    OnlyChanges [.left, .right, .rnd, .phase] s t

/-- R142. -/
def Obligations.WhbWhitensWithTheLastSixteen : Prop :=
  ∀ s : State, ∃ t, exec .whb s = .next t ∧
    (∀ i (h : i < 8), t.lbuf[i] = s.lbuf[i] ^^^ s.wk[16 + i] ∧ t.rbuf[i] = s.rbuf[i] ^^^ s.wk[24 + i]) ∧
    (s.dir = .encrypt → t.rnd = s.rnd ∧ t.phase = .merge) ∧
    (s.dir = .decrypt → s.var = .feistel → t.rnd = 6#8 ∧ t.phase = .fr) ∧
    (s.dir = .decrypt → s.var = .laiMassey → t.rnd = 5#8 ∧ t.phase = .lmmix) ∧
    OnlyChanges [.left, .right, .rnd, .phase] s t

/-- R143. -/
def Obligations.MergeWritesTheResult : Prop :=
  ∀ s : State, ∃ t, exec .merge s = .next t ∧
    (∀ i (h : i < 8), t.dout[i] = s.lbuf[i] ∧ t.dout[8 + i] = s.rbuf[i]) ∧ t.phase = .erase ∧
    OnlyChanges [.dout, .phase] s t

/-- R146: the pure forms, byte by byte, and that they undo each other. -/
def Obligations.SplitMergeAndWhiteningInvert : Prop :=
  (∀ (b : Bytes 16) i (hi : i < 8), (splitBlock b).1[i] = b[i] ∧ (splitBlock b).2[i] = b[8 + i]) ∧
  (∀ (h : Bytes 8 × Bytes 8) i (hi : i < 8), (mergeHalves h)[i] = h.1[i] ∧ (mergeHalves h)[8 + i] = h.2[i]) ∧
  (∀ (w : Bytes 32) (h : Bytes 8 × Bytes 8) i (hi : i < 8),
    (whitenA w h).1[i] = h.1[i] ^^^ w[i] ∧ (whitenA w h).2[i] = h.2[i] ^^^ w[8 + i] ∧
    (whitenB w h).1[i] = h.1[i] ^^^ w[16 + i] ∧ (whitenB w h).2[i] = h.2[i] ^^^ w[24 + i]) ∧
  (∀ b, mergeHalves (splitBlock b) = b) ∧ (∀ h, splitBlock (mergeHalves h) = h) ∧
  (∀ w h, whitenA w (whitenA w h) = h) ∧ ∀ w h, whitenB w (whitenB w h) = h

/-! ### spec/42_feistel.md: FRE -/

/-- R161; it completes in every state, and the PRF key is `RK[RND]` when that register is built. Where it is not, and off the
paths, the model's choice: notes/assumptions/5.md, 6.md. -/
def Obligations.FlUpdatesTheLeftHalf : Prop :=
  ∀ s : State, ∃ t, exec .fl s = .next t ∧
    (∀ h : s.rnd.toNat < Config.nrMax, t.pout = Config.prf s.rk[s.rnd.toNat] s.rbuf) ∧
    (∀ i (h : i < 8), t.lbuf[i] = s.lbuf[i] ^^^ t.pout[i]) ∧
    (s.dir = .encrypt → t.rnd = s.rnd ∧ t.phase = .fr) ∧
    (s.dir = .decrypt → s.rnd = 0#8 → t.rnd = 0#8 ∧ t.phase = .wha) ∧
    (s.dir = .decrypt → s.rnd ≠ 0#8 → t.rnd = s.rnd - 2#8 ∧ t.phase = .fr) ∧
    OnlyChanges [.pout, .left, .rnd, .phase, .prfPort] s t

/-- R162; it completes in every state, and the PRF key is `RK[RND + 1]` when that register is built. Where it is not, and off
the paths, the model's choice: notes/assumptions/5.md, 6.md. -/
def Obligations.FrUpdatesTheRightHalf : Prop :=
  ∀ s : State, ∃ t, exec .fr s = .next t ∧
    (∀ h : s.rnd.toNat + 1 < Config.nrMax, t.pout = Config.prf s.rk[s.rnd.toNat + 1] s.lbuf) ∧
    (∀ i (h : i < 8), t.rbuf[i] = s.rbuf[i] ^^^ t.pout[i]) ∧
    (s.dir = .encrypt → s.rnd.toNat + 2 = s.rounds → t.rnd = 0#8 ∧ t.phase = .whb) ∧
    (s.dir = .encrypt → s.rnd.toNat + 2 ≠ s.rounds → t.rnd = s.rnd + 2#8 ∧ t.phase = .fl) ∧
    (s.dir = .decrypt → t.rnd = s.rnd ∧ t.phase = .fl) ∧
    OnlyChanges [.pout, .right, .rnd, .phase, .prfPort] s t

/-- Derived from R163 to R165: the two loops undo each other, whatever the PRF, the round keys and the number of rounds; at an
odd number, which the spec refuses, the loops are the model's choice (notes/assumptions/15.md). -/
def Obligations.FeistelLoopsInvert : Prop :=
  ∀ (prf : Prf) (rk : Nat → Bytes 32) (n : Nat) (h : Bytes 8 × Bytes 8),
    feistelDec prf rk n (feistelEnc prf rk n h) = h ∧ feistelEnc prf rk n (feistelDec prf rk n h) = h

/-! ### spec/43_lai_massey.md: LMRE -/

/-- R180: `sigma` byte by byte, its linearity and its zero. -/
def Obligations.SigmaSwapsAndMixesTheQuarters : Prop :=
  (∀ (x : Bytes 8) (j : Nat) (hj : j < 4), (sigma x)[j] = x[j + 4] ∧ (sigma x)[j + 4] = x[j] ^^^ x[j + 4]) ∧
  (∀ x y, sigma (xorBytes x y) = xorBytes (sigma x) (sigma y)) ∧ sigma (zeroBytes 8) = zeroBytes 8

/-- R181: `sigma_inv` byte by byte, and that it is the inverse. -/
def Obligations.SigmaInvUndoesSigma : Prop :=
  (∀ (x : Bytes 8) (j : Nat) (hj : j < 4), (sigmaInv x)[j] = x[j] ^^^ x[j + 4] ∧ (sigmaInv x)[j + 4] = x[j]) ∧
  (∀ x, sigmaInv (sigma x) = x) ∧ ∀ x, sigma (sigmaInv x) = x

/-- R182: `sigma` has order three and is an orthomorphism. -/
def Obligations.SigmaIsAnOrthomorphism : Prop :=
  (∀ x, sigma (sigma x) = sigmaInv x) ∧ (∀ x, sigma (sigma (sigma x)) = x) ∧ Function.Bijective sigma ∧
  (∀ x, xorBytes (sigma x) x = sigmaInv x) ∧ Function.Bijective fun x => xorBytes (sigma x) x

/-- R184; it completes in every state, and the PRF key is `RK[RND]` when that register is built. Where it is not, and off the
paths, the model's choice: notes/assumptions/5.md, 6.md. -/
def Obligations.LmmixMixesBothHalves : Prop :=
  ∀ s : State, ∃ t, exec .lmmix s = .next t ∧
    (∀ i (h : i < 8), t.cbuf[i] = s.lbuf[i] ^^^ s.rbuf[i] ∧ t.cbuf[8 + i] = 0#8) ∧
    (∀ h : s.rnd.toNat < Config.nrMax, t.pout = Config.prf s.rk[s.rnd.toNat] t.cbuf) ∧
    (∀ i (h : i < 8), t.lbuf[i] = s.lbuf[i] ^^^ t.pout[i] ∧ t.rbuf[i] = s.rbuf[i] ^^^ t.pout[i]) ∧
    (s.dir = .encrypt → s.rnd.toNat = s.rounds - 1 → t.rnd = 0#8 ∧ t.phase = .whb) ∧
    (s.dir = .encrypt → s.rnd.toNat ≠ s.rounds - 1 → t.rnd = s.rnd ∧ t.phase = .lmsig) ∧
    (s.dir = .decrypt → s.rnd = 0#8 → t.rnd = 0#8 ∧ t.phase = .wha) ∧
    (s.dir = .decrypt → s.rnd ≠ 0#8 → t.rnd = s.rnd - 1#8 ∧ t.phase = .lmisig) ∧
    OnlyChanges [.cbuf, .pout, .left, .right, .rnd, .phase, .prfPort] s t

/-- R185; RND + 1 wraps at its 8 bits off the paths, the model's choice: notes/assumptions/6.md. -/
def Obligations.LmsigAppliesSigmaToTheLeftHalf : Prop :=
  ∀ s : State, ∃ t, exec .lmsig s = .next t ∧
    (∀ j (h : j < 4), t.lbuf[j] = s.lbuf[j + 4] ∧ t.lbuf[j + 4] = s.lbuf[j] ^^^ s.lbuf[j + 4]) ∧
    t.rnd.toNat = (s.rnd.toNat + 1) % 256 ∧ t.phase = .lmmix ∧ OnlyChanges [.left, .rnd, .phase] s t

/-- R186. -/
def Obligations.LmisigUndoesSigmaOnTheLeftHalf : Prop :=
  ∀ s : State, ∃ t, exec .lmisig s = .next t ∧
    (∀ j (h : j < 4), t.lbuf[j] = s.lbuf[j] ^^^ s.lbuf[j + 4] ∧ t.lbuf[j + 4] = s.lbuf[j]) ∧
    t.phase = .lmmix ∧ OnlyChanges [.left, .phase] s t

/-- R189: the two loops undo each other, whatever the PRF, the round keys and the number of rounds. -/
def Obligations.LaiMasseyLoopsInvert : Prop :=
  ∀ (prf : Prf) (rk : Nat → Bytes 32) (n : Nat) (h : Bytes 8 × Bytes 8),
    lmDec prf rk n (lmEnc prf rk n h) = h ∧ lmEnc prf rk n (lmDec prf rk n h) = h

/-- R190, on the machine: LMMIX leaves `L ^ R` as it was. -/
def Obligations.LmmixKeepsCombined : Prop :=
  ∀ s : State, ∃ t, exec .lmmix s = .next t ∧ xorBytes t.left t.right = xorBytes s.left s.right

/-! ### spec/44_commands.md: ERASE, the sequencer, the commands and their laws -/

/-- R206. -/
def Obligations.EraseClearsAllButTheResult : Prop :=
  ∀ s : State, ∃ t, exec .erase s = .next t ∧ Cleared t ∧ statusBits t.status = 0b0010#4 ∧ t.phase = .idle ∧
    t.dout = s.dout ∧ t.cmdr = s.cmdr ∧ t.prfReq = s.prfReq ∧ t.env = s.env

/-- R205: an accepted START, and every step of a busy core on the paths of the four commands, follow the table of the
sequencer. -/
def Obligations.SequencerFollowsTheTable : Prop :=
  (∀ s t : State, OnPath s → s.phase ≠ .idle → s.env.script = [] → step s = .next t →
    (t.phase, t.rnd.toNat) = nextPhase s.phase s.rnd.toNat s.dir s.var) ∧
  ∀ (s : State) (d : Direction) (v : Variant) (k : Bytes 32) (b : Bytes 16) (rest : List Event),
    s.phase = .idle → s.env.script = .start (commandWord d v 32 16 16) k b :: rest →
    ∃ t, step s = .next t ∧ (t.phase, t.rnd.toNat) = (.ksinit, 0)

/-- R201 to R204: the micro-operations of each command, in order. -/
def Obligations.CommandsRunTheirSequences : Prop :=
  ∀ s : State, s.phase = .ksinit → s.env.script = [] →
    phaseTrace (commandSteps s.var) s =
      match s.dir, s.var with
      | .encrypt, .feistel =>
        [.ksinit, .kswk] ++ List.replicate 8 .ksrk ++ [.split, .wha] ++
          (List.replicate 4 [Phase.fl, .fr]).flatten ++ [.whb, .merge, .erase]
      | .decrypt, .feistel =>
        [.ksinit, .kswk] ++ List.replicate 8 .ksrk ++ [.split, .whb] ++
          (List.replicate 4 [Phase.fr, .fl]).flatten ++ [.wha, .merge, .erase]
      | .encrypt, .laiMassey =>
        [.ksinit, .kswk] ++ List.replicate 6 .ksrk ++ [.split, .wha, .lmmix] ++
          (List.replicate 5 [Phase.lmsig, .lmmix]).flatten ++ [.whb, .merge, .erase]
      | .decrypt, .laiMassey =>
        [.ksinit, .kswk] ++ List.replicate 6 .ksrk ++ [.split, .whb, .lmmix] ++
          (List.replicate 5 [Phase.lmisig, .lmmix]).flatten ++ [.wha, .merge, .erase]

/-- R209 for the Feistel variant: from any idle state, an accepted START and the core's 23 steps leave `DOUT` equal to the
pure function, and everything else as ERASE leaves it. -/
def Obligations.FeistelCommandComputesTheCipher : Prop :=
  ∀ (s : State) (d : Direction) (k : Bytes 32) (b : Bytes 16),
    s.phase = .idle → s.env.script = [.start (commandWord d .feistel 32 16 16) k b] →
    runSteps 24 s = .next
      (afterCommand (commandWord d .feistel 32 16 16) (cipher Config.prf d .feistel k b)
        { s.env with script := [], keyPort := k, dinPort := b })

/-- R209 for the Lai-Massey variant, with 24 steps. -/
def Obligations.LaiMasseyCommandComputesTheCipher : Prop :=
  ∀ (s : State) (d : Direction) (k : Bytes 32) (b : Bytes 16),
    s.phase = .idle → s.env.script = [.start (commandWord d .laiMassey 32 16 16) k b] →
    runSteps 25 s = .next
      (afterCommand (commandWord d .laiMassey 32 16 16) (cipher Config.prf d .laiMassey k b)
        { s.env with script := [], keyPort := k, dinPort := b })

/-- R210: the round-trip law, for every PRF. -/
def Obligations.DecryptUndoesEncrypt : Prop :=
  ∀ (prf : Prf) (v : Variant) (k : Bytes 32) (b : Bytes 16),
    cipher prf .decrypt v k (cipher prf .encrypt v k b) = b ∧
    cipher prf .encrypt v k (cipher prf .decrypt v k b) = b

/-- R168, R192: the wiring under a PRF that is identically zero. -/
def Obligations.ZeroPrfShowsTheWiring : Prop :=
  ∀ (prf : Prf) (d : Direction) (k : Bytes 32) (b : Bytes 16), (∀ x y, prf x y = zeroBytes 32) →
    cipher prf d .feistel k b = b ∧
    cipher prf .encrypt .laiMassey k b = cat (sigmaInv (slice b 0 8)) (slice b 8 8)

/-- R211: what a command leaves does not depend on what went before it. -/
def Obligations.NoHiddenStateBetweenCommands : Prop :=
  ∀ (s₁ s₂ t₁ t₂ : State) (d : Direction) (v : Variant) (k : Bytes 32) (b : Bytes 16),
    s₁.phase = .idle → s₂.phase = .idle →
    s₁.env.script = [.start (commandWord d v 32 16 16) k b] →
    s₂.env.script = [.start (commandWord d v 32 16 16) k b] →
    runSteps (commandSteps v + 1) s₁ = .next t₁ → runSteps (commandSteps v + 1) s₂ = .next t₂ →
    { t₁ with env := Env.quiet } = { t₂ with env := Env.quiet }

/-- R213: control does not look at data. -/
def Obligations.ControlDoesNotSeeData : Prop :=
  ∀ s₁ s₂ t₁ t₂ : State, SameControl s₁ s₂ → step s₁ = .next t₁ → step s₂ = .next t₂ → SameControl t₁ t₂

/-- R289: a busy core left to itself is idle and done after a bounded number of steps, the PRF unit answering at once
(notes/assumptions/4.md). -/
def Obligations.BusyCoreReachesIdle : Prop :=
  ∀ s : State, OnPath s → s.phase ≠ .idle → s.env.script = [] →
    ∃ n t, n ≤ commandSteps s.var ∧ runSteps n s = .next t ∧ t.phase = .idle ∧ t.status = .done ∧ Cleared t

/-! ### spec/10_state.md: the registers, their writers and their invariants -/

/-- R43: the reset values. -/
def Obligations.ResetValuesAreZero : Prop :=
  Cleared State.reset ∧ State.reset.dout = zeroBytes 16 ∧ State.reset.cmdr = 0#32 ∧ State.reset.phase = .idle ∧
  statusBits State.reset.status = 0b0000#4 ∧ State.reset.prfReq = none

/-- R270, R271: reset in any phase, whatever the state before. -/
def Obligations.ResetForgetsTheState : Prop :=
  ∀ (s : State) (rest : List Event), s.env.script = .reset :: rest →
    step s = .next { State.reset with env := { s.env with script := rest } }

/-- R22, R66: every instruction writes the parts the spec lists for it, and nothing else (KSRK with RND beyond the registers
writes none, the model's choice: notes/assumptions/5.md). -/
def Obligations.InstructionsWriteOnlyTheirParts : Prop :=
  ∀ (i : Instr) (s t : State), exec i s = .next t → OnlyChanges (writesOf i s) s t

/-- R26: `DOUT` is written by MERGE and by reset only. -/
def Obligations.OnlyMergeAndResetWriteDout : Prop :=
  ∀ s t : State, step s = .next t → t.dout ≠ s.dout →
    (s.phase = .merge ∧ t.dout = cat s.left s.right) ∨ (∃ rest, s.env.script = .reset :: rest) ∧ t.dout = zeroBytes 16

/-- R24, R33: while a command runs, `KEY`, `DIN` and `CMDR` are held, up to ERASE or a reset. -/
def Obligations.CommandRegistersAreHeldWhileBusy : Prop :=
  ∀ s t : State, step s = .next t → s.phase ≠ .idle → s.phase ≠ .erase → (∀ rest, s.env.script ≠ .reset :: rest) →
    t.key = s.key ∧ t.din = s.din ∧ t.cmdr = s.cmdr

/-- R207: `PHASE` returns to IDLE in ERASE and nowhere else, reset apart. -/
def Obligations.OnlyEraseEndsACommand : Prop :=
  ∀ s t : State, step s = .next t → s.phase ≠ .idle → t.phase = .idle →
    (s.phase = .erase ∧ t.status = .done ∧ t.dout = s.dout) ∨ ∃ rest, s.env.script = .reset :: rest

/-- R38, R67: a host read changes no register and answers the register's value (the record of reads is the model's:
notes/assumptions/2.md). -/
def Obligations.HostReadsHaveNoSideEffect : Prop :=
  ∀ (s : State) (r : HostReg) (rest : List Event), s.env.script = .read r :: rest →
    ∃ t, step s = .next t ∧ { t with env := s.env } = s ∧ t.env.script = rest ∧
      t.env.seen = s.env.seen ++
        [match r with
         | .status => .status (statusBits s.status)
         | .dout => .dout s.dout
         | .cmdr => .cmdr s.cmdr]

/-- R30: the padding invariant, from reset on and kept by every step. -/
def Obligations.PaddingStaysZero : Prop :=
  Padded State.reset ∧ ∀ s t : State, Padded s → step s = .next t → Padded t

/-- R44, R215: whenever the core is idle every key-bearing register is zero, from reset on and kept by every step. -/
def Obligations.IdleCoreHoldsNoKeyMaterial : Prop :=
  (State.reset.phase = .idle → Cleared State.reset) ∧
  ∀ s t : State, (s.phase = .idle → Cleared s) → step s = .next t → (t.phase = .idle → Cleared t)

/-- R36: the five values of `STATUS`, and `BUSY = (PHASE != IDLE)` from reset on and kept by every step. -/
def Obligations.StatusTellsBusyDoneOrError : Prop :=
  (∀ st : Status, statusBits st ∈ [0b0000#4, 0b0001#4, 0b0010#4, 0b0100#4, 0b1000#4]) ∧
  StatusAgrees State.reset ∧ ∀ s t : State, StatusAgrees s → step s = .next t → StatusAgrees t

/-- The invariant holds right after reset. -/
def Obligations.InvariantHoldsAtReset : Prop := Inv State.reset

/-- HEADLINE: every step keeps the whole invariant, whatever the environment does (notes/assumptions/2.md, 4.md). -/
def Obligations.EveryStepKeepsTheInvariant : Prop :=
  ∀ s t : State, Inv s → step s = .next t → Inv t

/-! ### spec/20_memory.md: the PRF port; and the step -/

/-- R72: the five micro-operations that call the PRF, their requests, and that `POUT` takes the response; no other
micro-operation calls it. -/
def Obligations.PrfRequestsFollowTheTable : Prop :=
  ∀ s t : State, s.env.script = [] → step s = .next t →
    (s.phase = .kswk ∨ s.phase = .ksrk → t.pout = Config.prf s.key t.ctr) ∧
    (∀ h : s.rnd.toNat < Config.nrMax, s.phase = .fl → t.pout = Config.prf s.rk[s.rnd.toNat] s.rbuf) ∧
    (∀ h : s.rnd.toNat + 1 < Config.nrMax, s.phase = .fr → t.pout = Config.prf s.rk[s.rnd.toNat + 1] s.lbuf) ∧
    (∀ h : s.rnd.toNat < Config.nrMax, s.phase = .lmmix → t.pout = Config.prf s.rk[s.rnd.toNat] t.cbuf) ∧
    (∀ r, prfRequestOf s = some r → t.pout = Config.prf r.key r.input) ∧
    (prfRequestOf s = none → s.phase ≠ .erase → t.pout = s.pout)

/-- R76: the requests of one command, `2 N + 1` of them. The first `N + 1` are the key schedule's, with counters 1, 2, …; the
other `N` carry the round keys in round order, reversed for decrypt, and a padded half (Feistel) or the padded Combined
(Lai-Massey) of the state that raises them. -/
def Obligations.CommandMakesItsPrfRequests : Prop :=
  ∀ s : State, s.phase = .ksinit → s.env.script = [] →
    let requests := requestTrace (commandSteps s.var) s
    let roundKeys := (List.range s.rounds).map (scheduleRk Config.prf s.key)
    requests.length = 2 * s.rounds + 1 ∧
    requests.take (s.rounds + 1) =
      (List.range (s.rounds + 1)).map (fun j => { key := s.key, input := counterBlock (j + 1) }) ∧
    (requests.drop (s.rounds + 1)).map PrfRequest.key =
      (match s.dir with
       | .encrypt => roundKeys
       | .decrypt => roundKeys.reverse) ∧
    ∀ (n : Nat) (u : State) (r : PrfRequest), runSteps n s = .next u → prfRequestOf u = some r →
      (u.phase = .fl → s.var = .feistel ∧ r.input = pad16 u.right) ∧
      (u.phase = .fr → s.var = .feistel ∧ r.input = pad16 u.left) ∧
      (u.phase = .lmmix → s.var = .laiMassey ∧ r.input = pad16 (xorBytes u.left u.right))

/-- R73: while the PRF unit does not answer, the request of the waiting micro-operation is held stable and no register
changes. The event in which it does not answer is the model's: notes/assumptions/4.md. -/
def Obligations.WaitingCoreHoldsItsRequest : Prop :=
  ∀ (s t : State) (rest : List Event), Inv s → s.env.script = .prfDelay :: rest → step s = .next t →
    { t with env := s.env, prfReq := s.prfReq } = s ∧ t.prfReq = prfRequestOf s ∧
    prfRequestOf t = prfRequestOf s ∧ (∀ r, s.prfReq = some r → t.prfReq = some r)

/-- R272: a reset drops an outstanding request, and a response with no request outstanding changes no register (the
event that delivers it: notes/assumptions/4.md). -/
def Obligations.StrayPrfResponseIsIgnored : Prop :=
  (∀ (s t : State) (rest : List Event), s.env.script = .reset :: rest → step s = .next t →
    t.phase = .idle ∧ t.prfReq = none) ∧
  ∀ (s t : State) (rest : List Event), s.env.script = .prfAnswer :: rest → s.prfReq = none → step s = .next t →
    { t with env := s.env } = s

/-- A step runs the decoded instruction: a micro-operation's code (also when the response to its outstanding PRF request
arrives, R73), or a presented command word. How events stand in State is
the model's choice: notes/assumptions/2.md, 4.md, 7.md. -/
def Obligations.StepRunsTheDecodedInstruction : Prop :=
  ∀ (s : State) (i : Instr),
    (decodePhase (phaseCode s.phase) = .ok i →
      (s.env.script = [] → step s = exec i s) ∧
      (∀ rest, s.env.script = .coreStep :: rest → step s = exec i { s with env := { s.env with script := rest } }) ∧
      (∀ rest, s.env.script = .wait :: rest → step s = exec i s) ∧
      (∀ rest, s.env.script = .prfAnswer :: rest → s.prfReq.isSome →
        step s = exec i { s with env := { s.env with script := rest } })) ∧
    (∀ w k d rest, decodeCommand w = .ok i → s.env.script = .start w k d :: rest →
      step s = exec i { s with env := { s.env with script := rest, keyPort := k, dinPort := d } })

/-- R34, R207: an idle core with no event to come stays as it is, the model's choice: notes/assumptions/7.md. -/
def Obligations.IdleCoreWaits : Prop :=
  ∀ s : State, s.phase = .idle →
    (s.env.script = [] → step s = .next s) ∧
    ∀ rest, s.env.script = .wait :: rest ∨ s.env.script = .coreStep :: rest →
      step s = .next { s with env := { s.env with script := rest } }

/-- R245, R248: no step ends in a fault or a refusal. -/
def Obligations.NoStepStops : Prop := ∀ s : State, ∃ t, step s = .next t
end

