-- ==== Sys2Proof/Laws/Bytes.lean ====
section
/-! SUPPORT. The laws of the byte operations: what each byte of a result is, and the algebra of exclusive-or
(spec/00_scope.md, R11 and R14). -/

namespace Sys2Proof.Machine

/-! ### The byte at an index -/

@[simp] theorem getElem_zeroBytes (n i : Nat) (h : i < n) : (zeroBytes n)[i] = 0#8 := by simp [zeroBytes]

@[simp] theorem getElem_xorBytes {n : Nat} (a b : Bytes n) (i : Nat) (h : i < n) :
    (xorBytes a b)[i] = a[i] ^^^ b[i] := by simp [xorBytes]

@[simp] theorem getElem_slice {n : Nat} (b : Bytes n) (off len : Nat) (h : off + len ≤ n) (i : Nat) (hi : i < len) :
    (slice b off len h)[i] = b[off + i] := by simp [slice]

theorem getElem_cat {m n : Nat} (a : Bytes m) (b : Bytes n) (i : Nat) (h : i < m + n) :
    (cat a b)[i] = if h' : i < m then a[i] else b[i - m] := by simp [cat]

/-- The first part of a concatenation. -/
@[simp] theorem getElem_cat_left {m n : Nat} (a : Bytes m) (b : Bytes n) (i : Nat) (h : i < m) :
    (cat a b)[i]'(Nat.lt_add_right n h) = a[i] := by simp [getElem_cat, h]

/-- The second part of a concatenation. -/
@[simp] theorem getElem_cat_right {m n : Nat} (a : Bytes m) (b : Bytes n) (i : Nat) (h : i < n) :
    (cat a b)[m + i] = b[i] := by simp [getElem_cat]

@[simp] theorem getElem_incLast (x : Bytes 16) (i : Nat) (h : i < 16) :
    (incLast x)[i] = if i = 15 then x[i] + 1#8 else x[i] := by simp [incLast]

@[simp] theorem getElem_counterBlock (j i : Nat) (h : i < 16) :
    (counterBlock j)[i] = if i = 15 then BitVec.ofNat 8 j else 0#8 := by simp [counterBlock]

/-- Two halves side by side, with the length written out. -/
@[simp] theorem getElem_cat_halves (a b : Bytes 8) (i : Nat) (h : i < 16) :
    (cat a b : Bytes 16)[i] = if h' : i < 8 then a[i] else b[i - 8] := getElem_cat a b i h

/-- Two quarters side by side, with the length written out. -/
@[simp] theorem getElem_cat_quarters (a b : Bytes 4) (i : Nat) (h : i < 8) :
    (cat a b : Bytes 8)[i] = if h' : i < 4 then a[i] else b[i - 4] := getElem_cat a b i h

@[simp] theorem getElem_pad16 (x : Bytes 8) (i : Nat) (h : i < 16) :
    (pad16 x)[i] = if h' : i < 8 then x[i] else 0#8 := by
  simp [pad16]

@[simp] theorem getElem_halfOf (buf : Bytes 16) (i : Nat) (h : i < 8) : (halfOf buf)[i] = buf[i] := by simp [halfOf]

@[simp] theorem getElem_trunc8 (o : Bytes 32) (i : Nat) (h : i < 8) : (trunc8 o)[i] = o[i] := by simp [trunc8]

@[simp] theorem getElem_writeHalf (buf : Bytes 16) (x : Bytes 8) (i : Nat) (h : i < 16) :
    (writeHalf buf x)[i] = if h' : i < 8 then x[i] else buf[i] := by
  unfold writeHalf
  rw [getElem_cat_halves]
  split
  · rfl
  · simp [show 8 + (i - 8) = i by omega]

/-! ### Slices and concatenations -/

@[simp] theorem slice_cat_left {m n : Nat} (a : Bytes m) (b : Bytes n) (h : 0 + m ≤ m + n) :
    slice (cat a b) 0 m h = a := by
  refine Vector.ext fun i hi => ?_
  simp [hi]

@[simp] theorem slice_cat_right {m n : Nat} (a : Bytes m) (b : Bytes n) (h : m + n ≤ m + n) :
    slice (cat a b) m n h = b := by
  refine Vector.ext fun i hi => ?_
  rw [getElem_slice, getElem_cat_right a b i hi]

/-- A vector is its first bytes followed by the rest. -/
theorem cat_slice {m n : Nat} (b : Bytes (m + n)) :
    cat (slice b 0 m (by omega)) (slice b m n (by omega)) = b := by
  refine Vector.ext fun i hi => ?_
  by_cases h : i < m
  · simp [h]
  · simp [getElem_cat, h, Nat.add_sub_cancel' (Nat.le_of_not_lt h)]

@[simp] theorem halfOf_pad16 (h : Bytes 8) : halfOf (pad16 h) = h := slice_cat_left h (zeroBytes 8) _

@[simp] theorem slice_pad16 (h : Bytes 8) : slice (pad16 h) 8 8 = zeroBytes 8 := slice_cat_right h (zeroBytes 8) _

@[simp] theorem halfOf_writeHalf (buf : Bytes 16) (h : Bytes 8) : halfOf (writeHalf buf h) = h :=
  slice_cat_left h (slice buf 8 8) _

@[simp] theorem slice_writeHalf (buf : Bytes 16) (h : Bytes 8) : slice (writeHalf buf h) 8 8 = slice buf 8 8 :=
  slice_cat_right h (slice buf 8 8) _

/-- Writing the half of a padded half. -/
@[simp] theorem writeHalf_pad16 (a h : Bytes 8) : writeHalf (pad16 a) h = pad16 h := by
  unfold writeHalf; rw [slice_pad16]; rfl

/-- A buffer whose padding is zero is its own half, padded. -/
theorem pad16_halfOf {buf : Bytes 16} (h : slice buf 8 8 = zeroBytes 8) : pad16 (halfOf buf) = buf := by
  unfold pad16; rw [← h]; exact cat_slice (m := 8) (n := 8) buf

/-! ### Exclusive-or -/

theorem xorBytes_comm {n : Nat} (a b : Bytes n) : xorBytes a b = xorBytes b a := by
  refine Vector.ext fun i hi => ?_
  simp [BitVec.xor_comm]

theorem xorBytes_assoc {n : Nat} (a b c : Bytes n) : xorBytes (xorBytes a b) c = xorBytes a (xorBytes b c) := by
  refine Vector.ext fun i hi => ?_
  simp [BitVec.xor_assoc]

@[simp] theorem xorBytes_self {n : Nat} (a : Bytes n) : xorBytes a a = zeroBytes n := by
  refine Vector.ext fun i hi => ?_
  simp

@[simp] theorem xorBytes_zero {n : Nat} (a : Bytes n) : xorBytes a (zeroBytes n) = a := by
  refine Vector.ext fun i hi => ?_
  simp

@[simp] theorem zero_xorBytes {n : Nat} (a : Bytes n) : xorBytes (zeroBytes n) a = a := by
  refine Vector.ext fun i hi => ?_
  simp

/-- Adding the same bytes twice gives back the first (R14). -/
@[simp] theorem xorBytes_cancel {n : Nat} (a b : Bytes n) : xorBytes (xorBytes a b) b = a := by
  rw [xorBytes_assoc, xorBytes_self, xorBytes_zero]

/-- Exclusive-or acts on slices. -/
@[simp] theorem slice_xorBytes {n : Nat} (a b : Bytes n) (off len : Nat) (h : off + len ≤ n) :
    slice (xorBytes a b) off len h = xorBytes (slice a off len h) (slice b off len h) := by
  refine Vector.ext fun i hi => ?_
  simp

/-! ### Zero and the counter -/

@[simp] theorem slice_zeroBytes (n off len : Nat) (h : off + len ≤ n) :
    slice (zeroBytes n) off len h = zeroBytes len := by
  refine Vector.ext fun i hi => ?_
  simp

@[simp] theorem pad16_zeroBytes : pad16 (zeroBytes 8) = zeroBytes 16 := by decide

@[simp] theorem counterBlock_zero : counterBlock 0 = zeroBytes 16 := by decide

/-- The increment of a counter that stands at `j` (spec/40_keyschedule.md, R122). -/
@[simp] theorem incLast_counterBlock (j : Nat) : incLast (counterBlock j) = counterBlock (j + 1) := by
  refine Vector.ext fun i hi => ?_
  by_cases h : i = 15 <;> simp [h, BitVec.ofNat_add]

/-! ### The orthomorphism by quarters -/

@[simp] theorem slice_sigma_low (h : Bytes 8) : slice (sigma h) 0 4 = slice h 4 4 :=
  slice_cat_left (slice h 4 4) (xorBytes (slice h 0 4) (slice h 4 4)) _

@[simp] theorem slice_sigma_high (h : Bytes 8) : slice (sigma h) 4 4 = xorBytes (slice h 0 4) (slice h 4 4) :=
  slice_cat_right (slice h 4 4) (xorBytes (slice h 0 4) (slice h 4 4)) _

@[simp] theorem slice_sigmaInv_low (h : Bytes 8) : slice (sigmaInv h) 0 4 = xorBytes (slice h 0 4) (slice h 4 4) :=
  slice_cat_left (xorBytes (slice h 0 4) (slice h 4 4)) (slice h 0 4) _

@[simp] theorem slice_sigmaInv_high (h : Bytes 8) : slice (sigmaInv h) 4 4 = slice h 0 4 :=
  slice_cat_right (xorBytes (slice h 0 4) (slice h 4 4)) (slice h 0 4) _

/-- Two halves with the same quarters are the same. -/
theorem half_ext {a b : Bytes 8} (h₀ : slice a 0 4 = slice b 0 4) (h₁ : slice a 4 4 = slice b 4 4) : a = b := by
  rw [← cat_slice (m := 4) (n := 4) a, ← cat_slice (m := 4) (n := 4) b, h₀, h₁]

/-- Bit `8k + j` of a port is bit `j` of byte `k` (spec/00_scope.md, R10). -/
theorem portBits_getLsbD {n : Nat} (b : Bytes n) (k j : Nat) (hk : k < n) (hj : j < 8) :
    (portBits b).getLsbD (8 * k + j) = b[k].getLsbD j := by
  have h : 8 * k + j < 8 * n := by omega
  have e : (8 * k + j) / 8 = k := by omega
  have e' : (8 * k + j) % 8 = j := by omega
  simp only [portBits, BitVec.getLsbD_ofFnLE, h, dif_pos, e, e']

/-- What goes onto the wires of a port comes off them. -/
theorem portBytes_portBits {n : Nat} (b : Bytes n) : portBytes (portBits b) = b := by
  refine Vector.ext fun k hk => BitVec.eq_of_getLsbD_eq fun j hj => ?_
  simp [portBytes, hj, portBits_getLsbD b k j hk hj]

end Sys2Proof.Machine
end

