-- ==== Sys2Proof/Laws/Decode.lean ====
section
/-! SUPPORT. The bits of a command word, so that no proof takes the concatenation apart again. -/

namespace Sys2Proof

/-- Bit `j` of a command word: DIR, VAR, RSV0, KLEN, ILEN, OLEN from bit 0 up (spec/30_encoding.md, R90). -/
theorem commandWord_getLsbD (d : Direction) (v : Variant) (k i o j : Nat) :
    (commandWord d v k i o).getLsbD j =
      if j < 1 then decide (d = .decrypt)
      else if j < 2 then decide (v = .laiMassey)
      else if j < 8 then false
      else if j < 16 then (BitVec.ofNat 8 k).getLsbD (j - 8)
      else if j < 24 then (BitVec.ofNat 8 i).getLsbD (j - 16)
      else (BitVec.ofNat 8 o).getLsbD (j - 24) := by
  unfold commandWord
  simp only [BitVec.getLsbD_append]
  by_cases h1 : j < 1
  · obtain rfl : j = 0 := by omega
    cases d <;> simp [dirBit]
  by_cases h2 : j < 2
  · obtain rfl : j = 1 := by omega
    cases v <;> simp [varBit]
  by_cases h8 : j < 8
  · simp [h1, h2, h8, show j - 1 - 1 < 6 by omega, show ¬ j - 1 < 1 by omega]
  by_cases h16 : j < 16
  · simp only [h1, h2, h8, h16, show ¬ j - 1 < 1 by omega, show ¬ j - 1 - 1 < 6 by omega,
      show j - 1 - 1 - 6 = j - 8 by omega, show j - 8 < 8 by omega, if_true, if_false]
  by_cases h24 : j < 24
  · simp only [h1, h2, h8, h16, h24, show ¬ j - 1 < 1 by omega, show ¬ j - 1 - 1 < 6 by omega,
      show ¬ j - 1 - 1 - 6 < 8 by omega,
      show j - 1 - 1 - 6 - 8 = j - 16 by omega, show j - 16 < 8 by omega, if_true, if_false]
  · simp only [h1, h2, h8, h16, h24, show ¬ j - 1 < 1 by omega, show ¬ j - 1 - 1 < 6 by omega,
      show ¬ j - 1 - 1 - 6 < 8 by omega, show ¬ j - 1 - 1 - 6 - 8 < 8 by omega,
      show j - 1 - 1 - 6 - 8 - 8 = j - 24 by omega, if_false]

/-! ### The fields of a command word -/

section
variable (d : Direction) (v : Variant) (k i o : Nat)

@[simp] theorem dirOf_commandWord : dirOf (commandWord d v k i o) = d := by
  unfold dirOf
  rw [commandWord_getLsbD]
  cases d <;> rfl

@[simp] theorem varOf_commandWord : varOf (commandWord d v k i o) = v := by
  unfold varOf
  rw [commandWord_getLsbD]
  cases v <;> rfl

@[simp] theorem rsv0Of_commandWord : rsv0Of (commandWord d v k i o) = 0#6 := by
  unfold rsv0Of
  refine BitVec.eq_of_getLsbD_eq fun j hj => ?_
  rw [BitVec.getLsbD_extractLsb', commandWord_getLsbD]
  rw [if_neg (by omega), if_neg (by omega), if_pos (by omega)]
  simp

theorem klen_commandWord : (commandWord d v k i o).extractLsb' 8 8 = BitVec.ofNat 8 k := by
  refine BitVec.eq_of_getLsbD_eq fun j hj => ?_
  rw [BitVec.getLsbD_extractLsb', commandWord_getLsbD, if_neg (by omega), if_neg (by omega), if_neg (by omega),
    if_pos (by omega), Nat.add_sub_cancel_left, decide_eq_true hj, Bool.true_and]

theorem ilen_commandWord : (commandWord d v k i o).extractLsb' 16 8 = BitVec.ofNat 8 i := by
  refine BitVec.eq_of_getLsbD_eq fun j hj => ?_
  rw [BitVec.getLsbD_extractLsb', commandWord_getLsbD, if_neg (by omega), if_neg (by omega), if_neg (by omega),
    if_neg (by omega), if_pos (by omega), Nat.add_sub_cancel_left, decide_eq_true hj, Bool.true_and]

theorem olen_commandWord : (commandWord d v k i o).extractLsb' 24 8 = BitVec.ofNat 8 o := by
  refine BitVec.eq_of_getLsbD_eq fun j hj => ?_
  rw [BitVec.getLsbD_extractLsb', commandWord_getLsbD, if_neg (by omega), if_neg (by omega), if_neg (by omega),
    if_neg (by omega), if_neg (by omega), Nat.add_sub_cancel_left, decide_eq_true hj, Bool.true_and]

end

/-- The length fields of any word fit their places. -/
theorem lengthsFit_fields (w : BitVec 32) : lengthsFit (klenOf w) (ilenOf w) (olenOf w) = true := by
  simp only [lengthsFit, Bool.and_eq_true, decide_eq_true_eq]
  exact ⟨⟨BitVec.isLt _, BitVec.isLt _⟩, BitVec.isLt _⟩

/-- Well-formedness of the four commands, at once. -/
theorem commandOf_wellFormed (d : Direction) (v : Variant) (k i o : Nat) :
    (commandOf d v k i o).wellFormed = lengthsFit k i o := by cases d <;> cases v <;> rfl

/-- The encoding of a command. -/
theorem encode_commandOf (d : Direction) (v : Variant) (k i o : Nat) :
    encode (commandOf d v k i o) = .command (commandWord d v k i o) := by cases d <;> cases v <;> rfl

end Sys2Proof
end

