-- ==== Sys2Proof/Laws/State.lean ====
section
/-! SUPPORT. One lemma per field per update of the state, so that no later proof unfolds a record update. -/

namespace Sys2Proof.Machine

/-! ### goto -/

section
variable (s : State) (p : Phase)

@[simp] theorem goto_key : (s.goto p).key = s.key := rfl
@[simp] theorem goto_din : (s.goto p).din = s.din := rfl
@[simp] theorem goto_dout : (s.goto p).dout = s.dout := rfl
@[simp] theorem goto_ctr : (s.goto p).ctr = s.ctr := rfl
@[simp] theorem goto_wk : (s.goto p).wk = s.wk := rfl
@[simp] theorem goto_rk : (s.goto p).rk = s.rk := rfl
@[simp] theorem goto_lbuf : (s.goto p).lbuf = s.lbuf := rfl
@[simp] theorem goto_rbuf : (s.goto p).rbuf = s.rbuf := rfl
@[simp] theorem goto_cbuf : (s.goto p).cbuf = s.cbuf := rfl
@[simp] theorem goto_pout : (s.goto p).pout = s.pout := rfl
@[simp] theorem goto_cmdr : (s.goto p).cmdr = s.cmdr := rfl
@[simp] theorem goto_phase : (s.goto p).phase = p := rfl
@[simp] theorem goto_rnd : (s.goto p).rnd = s.rnd := rfl
@[simp] theorem goto_status : (s.goto p).status = s.status := rfl
@[simp] theorem goto_prfReq : (s.goto p).prfReq = s.prfReq := rfl
@[simp] theorem goto_env : (s.goto p).env = s.env := rfl

end

/-! ### gotoRound -/

section
variable (s : State) (p : Phase) (r : BitVec 8)

@[simp] theorem gotoRound_key : (s.gotoRound p r).key = s.key := rfl
@[simp] theorem gotoRound_din : (s.gotoRound p r).din = s.din := rfl
@[simp] theorem gotoRound_dout : (s.gotoRound p r).dout = s.dout := rfl
@[simp] theorem gotoRound_ctr : (s.gotoRound p r).ctr = s.ctr := rfl
@[simp] theorem gotoRound_wk : (s.gotoRound p r).wk = s.wk := rfl
@[simp] theorem gotoRound_rk : (s.gotoRound p r).rk = s.rk := rfl
@[simp] theorem gotoRound_lbuf : (s.gotoRound p r).lbuf = s.lbuf := rfl
@[simp] theorem gotoRound_rbuf : (s.gotoRound p r).rbuf = s.rbuf := rfl
@[simp] theorem gotoRound_cbuf : (s.gotoRound p r).cbuf = s.cbuf := rfl
@[simp] theorem gotoRound_pout : (s.gotoRound p r).pout = s.pout := rfl
@[simp] theorem gotoRound_cmdr : (s.gotoRound p r).cmdr = s.cmdr := rfl
@[simp] theorem gotoRound_phase : (s.gotoRound p r).phase = p := rfl
@[simp] theorem gotoRound_rnd : (s.gotoRound p r).rnd = r := rfl
@[simp] theorem gotoRound_status : (s.gotoRound p r).status = s.status := rfl
@[simp] theorem gotoRound_prfReq : (s.gotoRound p r).prfReq = s.prfReq := rfl
@[simp] theorem gotoRound_env : (s.gotoRound p r).env = s.env := rfl

end

/-! ### callPrf -/

section
variable (prf : Prf) (s : State) (r : PrfRequest)

@[simp] theorem callPrf_key : (s.callPrf prf r).key = s.key := rfl
@[simp] theorem callPrf_din : (s.callPrf prf r).din = s.din := rfl
@[simp] theorem callPrf_dout : (s.callPrf prf r).dout = s.dout := rfl
@[simp] theorem callPrf_ctr : (s.callPrf prf r).ctr = s.ctr := rfl
@[simp] theorem callPrf_wk : (s.callPrf prf r).wk = s.wk := rfl
@[simp] theorem callPrf_rk : (s.callPrf prf r).rk = s.rk := rfl
@[simp] theorem callPrf_lbuf : (s.callPrf prf r).lbuf = s.lbuf := rfl
@[simp] theorem callPrf_rbuf : (s.callPrf prf r).rbuf = s.rbuf := rfl
@[simp] theorem callPrf_cbuf : (s.callPrf prf r).cbuf = s.cbuf := rfl
@[simp] theorem callPrf_pout : (s.callPrf prf r).pout = prf r.key r.input := rfl
@[simp] theorem callPrf_cmdr : (s.callPrf prf r).cmdr = s.cmdr := rfl
@[simp] theorem callPrf_phase : (s.callPrf prf r).phase = s.phase := rfl
@[simp] theorem callPrf_rnd : (s.callPrf prf r).rnd = s.rnd := rfl
@[simp] theorem callPrf_status : (s.callPrf prf r).status = s.status := rfl
@[simp] theorem callPrf_prfReq : (s.callPrf prf r).prfReq = none := rfl
@[simp] theorem callPrf_env : (s.callPrf prf r).env = s.env := rfl

end

/-! ### takeException -/

section
variable (e : CoreException) (w : BitVec 32) (s : State)

@[simp] theorem takeException_key : (takeException e w s).key = s.key := rfl
@[simp] theorem takeException_din : (takeException e w s).din = s.din := rfl
@[simp] theorem takeException_dout : (takeException e w s).dout = s.dout := rfl
@[simp] theorem takeException_ctr : (takeException e w s).ctr = s.ctr := rfl
@[simp] theorem takeException_wk : (takeException e w s).wk = s.wk := rfl
@[simp] theorem takeException_rk : (takeException e w s).rk = s.rk := rfl
@[simp] theorem takeException_lbuf : (takeException e w s).lbuf = s.lbuf := rfl
@[simp] theorem takeException_rbuf : (takeException e w s).rbuf = s.rbuf := rfl
@[simp] theorem takeException_cbuf : (takeException e w s).cbuf = s.cbuf := rfl
@[simp] theorem takeException_pout : (takeException e w s).pout = s.pout := rfl
@[simp] theorem takeException_cmdr : (takeException e w s).cmdr = w := rfl
@[simp] theorem takeException_phase : (takeException e w s).phase = s.phase := rfl
@[simp] theorem takeException_rnd : (takeException e w s).rnd = s.rnd := rfl
@[simp] theorem takeException_status : (takeException e w s).status = statusOfException e := rfl
@[simp] theorem takeException_prfReq : (takeException e w s).prfReq = s.prfReq := rfl
@[simp] theorem takeException_env : (takeException e w s).env = s.env := rfl

end

/-! ### acceptStart -/

section
variable (w : BitVec 32) (s : State)

@[simp] theorem acceptStart_key : (acceptStart w s).key = s.env.keyPort := rfl
@[simp] theorem acceptStart_din : (acceptStart w s).din = s.env.dinPort := rfl
@[simp] theorem acceptStart_dout : (acceptStart w s).dout = s.dout := rfl
@[simp] theorem acceptStart_ctr : (acceptStart w s).ctr = s.ctr := rfl
@[simp] theorem acceptStart_wk : (acceptStart w s).wk = s.wk := rfl
@[simp] theorem acceptStart_rk : (acceptStart w s).rk = s.rk := rfl
@[simp] theorem acceptStart_lbuf : (acceptStart w s).lbuf = s.lbuf := rfl
@[simp] theorem acceptStart_rbuf : (acceptStart w s).rbuf = s.rbuf := rfl
@[simp] theorem acceptStart_cbuf : (acceptStart w s).cbuf = s.cbuf := rfl
@[simp] theorem acceptStart_pout : (acceptStart w s).pout = s.pout := rfl
@[simp] theorem acceptStart_cmdr : (acceptStart w s).cmdr = w := rfl
@[simp] theorem acceptStart_phase : (acceptStart w s).phase = .ksinit := rfl
@[simp] theorem acceptStart_rnd : (acceptStart w s).rnd = 0#8 := rfl
@[simp] theorem acceptStart_status : (acceptStart w s).status = .busy := rfl
@[simp] theorem acceptStart_prfReq : (acceptStart w s).prfReq = s.prfReq := rfl
@[simp] theorem acceptStart_env : (acceptStart w s).env = s.env := rfl

end

/-! ### clearWorking -/

section
variable (s : State)

@[simp] theorem clearWorking_key : (clearWorking s).key = zeroBytes 32 := rfl
@[simp] theorem clearWorking_din : (clearWorking s).din = zeroBytes 16 := rfl
@[simp] theorem clearWorking_dout : (clearWorking s).dout = s.dout := rfl
@[simp] theorem clearWorking_ctr : (clearWorking s).ctr = zeroBytes 16 := rfl
@[simp] theorem clearWorking_wk : (clearWorking s).wk = zeroBytes 32 := rfl
@[simp] theorem clearWorking_rk : (clearWorking s).rk = Vector.replicate Config.nrMax (zeroBytes 32) := rfl
@[simp] theorem clearWorking_lbuf : (clearWorking s).lbuf = zeroBytes 16 := rfl
@[simp] theorem clearWorking_rbuf : (clearWorking s).rbuf = zeroBytes 16 := rfl
@[simp] theorem clearWorking_cbuf : (clearWorking s).cbuf = zeroBytes 16 := rfl
@[simp] theorem clearWorking_pout : (clearWorking s).pout = zeroBytes 32 := rfl
@[simp] theorem clearWorking_cmdr : (clearWorking s).cmdr = s.cmdr := rfl
@[simp] theorem clearWorking_phase : (clearWorking s).phase = s.phase := rfl
@[simp] theorem clearWorking_rnd : (clearWorking s).rnd = 0#8 := rfl
@[simp] theorem clearWorking_status : (clearWorking s).status = s.status := rfl
@[simp] theorem clearWorking_prfReq : (clearWorking s).prfReq = s.prfReq := rfl
@[simp] theorem clearWorking_env : (clearWorking s).env = s.env := rfl

end

/-! ### resetCore -/

section
variable (s : State)

@[simp] theorem resetCore_key : (resetCore s).key = State.reset.key := rfl
@[simp] theorem resetCore_din : (resetCore s).din = State.reset.din := rfl
@[simp] theorem resetCore_dout : (resetCore s).dout = State.reset.dout := rfl
@[simp] theorem resetCore_ctr : (resetCore s).ctr = State.reset.ctr := rfl
@[simp] theorem resetCore_wk : (resetCore s).wk = State.reset.wk := rfl
@[simp] theorem resetCore_rk : (resetCore s).rk = State.reset.rk := rfl
@[simp] theorem resetCore_lbuf : (resetCore s).lbuf = State.reset.lbuf := rfl
@[simp] theorem resetCore_rbuf : (resetCore s).rbuf = State.reset.rbuf := rfl
@[simp] theorem resetCore_cbuf : (resetCore s).cbuf = State.reset.cbuf := rfl
@[simp] theorem resetCore_pout : (resetCore s).pout = State.reset.pout := rfl
@[simp] theorem resetCore_cmdr : (resetCore s).cmdr = State.reset.cmdr := rfl
@[simp] theorem resetCore_phase : (resetCore s).phase = State.reset.phase := rfl
@[simp] theorem resetCore_rnd : (resetCore s).rnd = State.reset.rnd := rfl
@[simp] theorem resetCore_status : (resetCore s).status = State.reset.status := rfl
@[simp] theorem resetCore_prfReq : (resetCore s).prfReq = State.reset.prfReq := rfl
@[simp] theorem resetCore_env : (resetCore s).env = s.env := rfl

end

/-! ### afterRead -/

section
variable (s : State) (r : HostReg)

@[simp] theorem afterRead_key : (s.afterRead r).key = s.key := rfl
@[simp] theorem afterRead_din : (s.afterRead r).din = s.din := rfl
@[simp] theorem afterRead_dout : (s.afterRead r).dout = s.dout := rfl
@[simp] theorem afterRead_ctr : (s.afterRead r).ctr = s.ctr := rfl
@[simp] theorem afterRead_wk : (s.afterRead r).wk = s.wk := rfl
@[simp] theorem afterRead_rk : (s.afterRead r).rk = s.rk := rfl
@[simp] theorem afterRead_lbuf : (s.afterRead r).lbuf = s.lbuf := rfl
@[simp] theorem afterRead_rbuf : (s.afterRead r).rbuf = s.rbuf := rfl
@[simp] theorem afterRead_cbuf : (s.afterRead r).cbuf = s.cbuf := rfl
@[simp] theorem afterRead_pout : (s.afterRead r).pout = s.pout := rfl
@[simp] theorem afterRead_cmdr : (s.afterRead r).cmdr = s.cmdr := rfl
@[simp] theorem afterRead_phase : (s.afterRead r).phase = s.phase := rfl
@[simp] theorem afterRead_rnd : (s.afterRead r).rnd = s.rnd := rfl
@[simp] theorem afterRead_status : (s.afterRead r).status = s.status := rfl
@[simp] theorem afterRead_prfReq : (s.afterRead r).prfReq = s.prfReq := rfl
@[simp] theorem afterRead_env : (s.afterRead r).env = { s.env with seen := s.env.seen ++ [hostRead r s] } := rfl

end

/-! ### withScript -/

section
variable (s : State) (rest : List Event)

@[simp] theorem withScript_key : (s.withScript rest).key = s.key := rfl
@[simp] theorem withScript_din : (s.withScript rest).din = s.din := rfl
@[simp] theorem withScript_dout : (s.withScript rest).dout = s.dout := rfl
@[simp] theorem withScript_ctr : (s.withScript rest).ctr = s.ctr := rfl
@[simp] theorem withScript_wk : (s.withScript rest).wk = s.wk := rfl
@[simp] theorem withScript_rk : (s.withScript rest).rk = s.rk := rfl
@[simp] theorem withScript_lbuf : (s.withScript rest).lbuf = s.lbuf := rfl
@[simp] theorem withScript_rbuf : (s.withScript rest).rbuf = s.rbuf := rfl
@[simp] theorem withScript_cbuf : (s.withScript rest).cbuf = s.cbuf := rfl
@[simp] theorem withScript_pout : (s.withScript rest).pout = s.pout := rfl
@[simp] theorem withScript_cmdr : (s.withScript rest).cmdr = s.cmdr := rfl
@[simp] theorem withScript_phase : (s.withScript rest).phase = s.phase := rfl
@[simp] theorem withScript_rnd : (s.withScript rest).rnd = s.rnd := rfl
@[simp] theorem withScript_status : (s.withScript rest).status = s.status := rfl
@[simp] theorem withScript_prfReq : (s.withScript rest).prfReq = s.prfReq := rfl
@[simp] theorem withScript_env : (s.withScript rest).env = { s.env with script := rest } := rfl

end

/-! ### drivePorts -/

section
variable (s : State) (k : Bytes 32) (d : Bytes 16)

@[simp] theorem drivePorts_key : (s.drivePorts k d).key = s.key := rfl
@[simp] theorem drivePorts_din : (s.drivePorts k d).din = s.din := rfl
@[simp] theorem drivePorts_dout : (s.drivePorts k d).dout = s.dout := rfl
@[simp] theorem drivePorts_ctr : (s.drivePorts k d).ctr = s.ctr := rfl
@[simp] theorem drivePorts_wk : (s.drivePorts k d).wk = s.wk := rfl
@[simp] theorem drivePorts_rk : (s.drivePorts k d).rk = s.rk := rfl
@[simp] theorem drivePorts_lbuf : (s.drivePorts k d).lbuf = s.lbuf := rfl
@[simp] theorem drivePorts_rbuf : (s.drivePorts k d).rbuf = s.rbuf := rfl
@[simp] theorem drivePorts_cbuf : (s.drivePorts k d).cbuf = s.cbuf := rfl
@[simp] theorem drivePorts_pout : (s.drivePorts k d).pout = s.pout := rfl
@[simp] theorem drivePorts_cmdr : (s.drivePorts k d).cmdr = s.cmdr := rfl
@[simp] theorem drivePorts_phase : (s.drivePorts k d).phase = s.phase := rfl
@[simp] theorem drivePorts_rnd : (s.drivePorts k d).rnd = s.rnd := rfl
@[simp] theorem drivePorts_status : (s.drivePorts k d).status = s.status := rfl
@[simp] theorem drivePorts_prfReq : (s.drivePorts k d).prfReq = s.prfReq := rfl
@[simp] theorem drivePorts_env : (s.drivePorts k d).env = { s.env with keyPort := k, dinPort := d } := rfl

end

/-! ### storeRoundKey and holdRequest write one field -/

section
variable (s : State)

@[simp] theorem storeRoundKey_key : s.storeRoundKey.key = s.key := by
  unfold State.storeRoundKey; split <;> rfl
@[simp] theorem storeRoundKey_din : s.storeRoundKey.din = s.din := by
  unfold State.storeRoundKey; split <;> rfl
@[simp] theorem storeRoundKey_dout : s.storeRoundKey.dout = s.dout := by
  unfold State.storeRoundKey; split <;> rfl
@[simp] theorem storeRoundKey_ctr : s.storeRoundKey.ctr = s.ctr := by
  unfold State.storeRoundKey; split <;> rfl
@[simp] theorem storeRoundKey_wk : s.storeRoundKey.wk = s.wk := by
  unfold State.storeRoundKey; split <;> rfl
@[simp] theorem storeRoundKey_lbuf : s.storeRoundKey.lbuf = s.lbuf := by
  unfold State.storeRoundKey; split <;> rfl
@[simp] theorem storeRoundKey_rbuf : s.storeRoundKey.rbuf = s.rbuf := by
  unfold State.storeRoundKey; split <;> rfl
@[simp] theorem storeRoundKey_cbuf : s.storeRoundKey.cbuf = s.cbuf := by
  unfold State.storeRoundKey; split <;> rfl
@[simp] theorem storeRoundKey_pout : s.storeRoundKey.pout = s.pout := by
  unfold State.storeRoundKey; split <;> rfl
@[simp] theorem storeRoundKey_cmdr : s.storeRoundKey.cmdr = s.cmdr := by
  unfold State.storeRoundKey; split <;> rfl
@[simp] theorem storeRoundKey_phase : s.storeRoundKey.phase = s.phase := by
  unfold State.storeRoundKey; split <;> rfl
@[simp] theorem storeRoundKey_rnd : s.storeRoundKey.rnd = s.rnd := by
  unfold State.storeRoundKey; split <;> rfl
@[simp] theorem storeRoundKey_status : s.storeRoundKey.status = s.status := by
  unfold State.storeRoundKey; split <;> rfl
@[simp] theorem storeRoundKey_prfReq : s.storeRoundKey.prfReq = s.prfReq := by
  unfold State.storeRoundKey; split <;> rfl
@[simp] theorem storeRoundKey_env : s.storeRoundKey.env = s.env := by
  unfold State.storeRoundKey; split <;> rfl
@[simp] theorem holdRequest_key : (holdRequest s).key = s.key := by
  unfold holdRequest; split <;> rfl
@[simp] theorem holdRequest_din : (holdRequest s).din = s.din := by
  unfold holdRequest; split <;> rfl
@[simp] theorem holdRequest_dout : (holdRequest s).dout = s.dout := by
  unfold holdRequest; split <;> rfl
@[simp] theorem holdRequest_ctr : (holdRequest s).ctr = s.ctr := by
  unfold holdRequest; split <;> rfl
@[simp] theorem holdRequest_wk : (holdRequest s).wk = s.wk := by
  unfold holdRequest; split <;> rfl
@[simp] theorem holdRequest_rk : (holdRequest s).rk = s.rk := by
  unfold holdRequest; split <;> rfl
@[simp] theorem holdRequest_lbuf : (holdRequest s).lbuf = s.lbuf := by
  unfold holdRequest; split <;> rfl
@[simp] theorem holdRequest_rbuf : (holdRequest s).rbuf = s.rbuf := by
  unfold holdRequest; split <;> rfl
@[simp] theorem holdRequest_cbuf : (holdRequest s).cbuf = s.cbuf := by
  unfold holdRequest; split <;> rfl
@[simp] theorem holdRequest_pout : (holdRequest s).pout = s.pout := by
  unfold holdRequest; split <;> rfl
@[simp] theorem holdRequest_cmdr : (holdRequest s).cmdr = s.cmdr := by
  unfold holdRequest; split <;> rfl
@[simp] theorem holdRequest_phase : (holdRequest s).phase = s.phase := by
  unfold holdRequest; split <;> rfl
@[simp] theorem holdRequest_rnd : (holdRequest s).rnd = s.rnd := by
  unfold holdRequest; split <;> rfl
@[simp] theorem holdRequest_status : (holdRequest s).status = s.status := by
  unfold holdRequest; split <;> rfl
@[simp] theorem holdRequest_env : (holdRequest s).env = s.env := by
  unfold holdRequest; split <;> rfl

end

/-! ### The reset values (spec/10_state.md, R43) -/

@[simp] theorem reset_key : State.reset.key = zeroBytes 32 := rfl
@[simp] theorem reset_din : State.reset.din = zeroBytes 16 := rfl
@[simp] theorem reset_dout : State.reset.dout = zeroBytes 16 := rfl
@[simp] theorem reset_ctr : State.reset.ctr = zeroBytes 16 := rfl
@[simp] theorem reset_wk : State.reset.wk = zeroBytes 32 := rfl
@[simp] theorem reset_rk : State.reset.rk = Vector.replicate Config.nrMax (zeroBytes 32) := rfl
@[simp] theorem reset_lbuf : State.reset.lbuf = zeroBytes 16 := rfl
@[simp] theorem reset_rbuf : State.reset.rbuf = zeroBytes 16 := rfl
@[simp] theorem reset_cbuf : State.reset.cbuf = zeroBytes 16 := rfl
@[simp] theorem reset_pout : State.reset.pout = zeroBytes 32 := rfl
@[simp] theorem reset_cmdr : State.reset.cmdr = 0#32 := rfl
@[simp] theorem reset_phase : State.reset.phase = .idle := rfl
@[simp] theorem reset_rnd : State.reset.rnd = 0#8 := rfl
@[simp] theorem reset_status : State.reset.status = .clear := rfl
@[simp] theorem reset_prfReq : State.reset.prfReq = none := rfl
@[simp] theorem reset_env : State.reset.env = Env.quiet := rfl

end Sys2Proof.Machine
end

