-- ==== Sys2Proof/Laws/Ops.lean ====
section
/-! SUPPORT. For each shared operation, once, what it does; the proofs cite these lemmas instead of unfolding it. -/

namespace Sys2Proof.Machine

/-! ### The port, the round-key file, the wait -/

/-- The register that `storeRoundKey` writes, and every other. -/
theorem storeRoundKey_rk (s : State) (i : Fin Config.nrMax) :
    s.storeRoundKey.rk[i] = if s.rnd.toNat = i.val then s.pout else s.rk[i] := by
  unfold State.storeRoundKey
  split
  · simp [Vector.getElem_set]
  · rename_i h
    rw [if_neg (fun e : s.rnd.toNat = i.val => h (e ▸ i.isLt))]

/-- A round key that is built reads as its register. -/
theorem roundKey_of_lt (s : State) (i : Nat) (h : i < Config.nrMax) : s.roundKey i = s.rk[i] := dif_pos h

/-- Waiting raises the request of the micro-operation in `PHASE`, or does nothing. -/
theorem holdRequest_cases (s : State) :
    (∃ r, prfRequestOf s = some r ∧ holdRequest s = { s with prfReq := some r }) ∨
      (prfRequestOf s = none ∧ holdRequest s = s) := by
  unfold holdRequest
  cases h : prfRequestOf s with
  | none => exact .inr ⟨rfl, rfl⟩
  | some r => exact .inl ⟨r, rfl, rfl⟩

/-! ### START -/

@[simp] theorem ready_iff (s : State) : ready s = true ↔ s.phase = .idle := by simp [ready]

/-- `BUSY` is up in one of the five values. -/
@[simp] theorem statusBusy_iff (st : Status) : statusBusy st = true ↔ st = .busy := by cases st <;> decide

@[simp] theorem lengthsRight_iff (k i o : Nat) : lengthsRight k i o = true ↔ k = 32 ∧ i = 16 ∧ o = 16 := by
  simp [lengthsRight, and_assoc]

/-- The three things START of a spelt command can do (spec/44_commands.md, R200). -/
theorem startCommand_cases (d : Direction) (v : Variant) (k i o : Nat) (s : State) :
    (s.phase ≠ .idle ∧ startCommand d v k i o s = s) ∨
    (s.phase = .idle ∧ ¬(k = 32 ∧ i = 16 ∧ o = 16) ∧
      startCommand d v k i o s = takeException .sizeMismatch (commandWord d v k i o) s) ∨
    (s.phase = .idle ∧ (k = 32 ∧ i = 16 ∧ o = 16) ∧
      startCommand d v k i o s = acceptStart (commandWord d v k i o) s) := by
  unfold startCommand
  simp only [ready_iff, lengthsRight_iff]
  split
  · split
    · exact .inr (.inr ⟨‹_›, ‹_›, rfl⟩)
    · exact .inr (.inl ⟨‹_›, ‹_›, rfl⟩)
  · exact .inl ⟨‹_›, rfl⟩

/-- The two things START of an unspelt word can do (R242). -/
theorem startIllegal_cases (w : BitVec 32) (s : State) :
    (s.phase ≠ .idle ∧ startIllegal w s = s) ∨
    (s.phase = .idle ∧ startIllegal w s = takeException .illegalCommand w s) := by
  unfold startIllegal
  simp only [ready_iff]
  split
  · exact .inr ⟨‹_›, rfl⟩
  · exact .inl ⟨‹_›, rfl⟩

/-! ### The successors write `PHASE` and `RND` only -/

/-- `t` is `s` but for `PHASE` and `RND`. -/
structure Redirects (s t : State) : Prop where
  key : t.key = s.key
  din : t.din = s.din
  dout : t.dout = s.dout
  ctr : t.ctr = s.ctr
  wk : t.wk = s.wk
  rk : t.rk = s.rk
  lbuf : t.lbuf = s.lbuf
  rbuf : t.rbuf = s.rbuf
  cbuf : t.cbuf = s.cbuf
  pout : t.pout = s.pout
  cmdr : t.cmdr = s.cmdr
  status : t.status = s.status
  prfReq : t.prfReq = s.prfReq
  env : t.env = s.env

theorem goto_redirects (s : State) (p : Phase) : Redirects s (s.goto p) := by constructor <;> rfl

theorem gotoRound_redirects (s : State) (p : Phase) (r : BitVec 8) : Redirects s (s.gotoRound p r) := by
  constructor <;> rfl

theorem ksrkNext_redirects (s : State) : Redirects s (ksrkNext s) := by
  unfold ksrkNext; split <;> exact gotoRound_redirects ..

theorem splitNext_redirects (s : State) : Redirects s (splitNext s) := by
  unfold splitNext; split <;> exact gotoRound_redirects ..

theorem whaNext_redirects (s : State) : Redirects s (whaNext s) := by
  unfold whaNext
  split
  · exact gotoRound_redirects ..
  · exact gotoRound_redirects ..
  · exact goto_redirects ..

theorem whbNext_redirects (s : State) : Redirects s (whbNext s) := by
  unfold whbNext
  split
  · exact goto_redirects ..
  · exact gotoRound_redirects ..
  · exact gotoRound_redirects ..

theorem flNext_redirects (s : State) : Redirects s (flNext s) := by
  unfold flNext
  split
  · exact goto_redirects ..
  · split
    · exact goto_redirects ..
    · exact gotoRound_redirects ..

theorem frNext_redirects (s : State) : Redirects s (frNext s) := by
  unfold frNext
  split
  · split <;> exact gotoRound_redirects ..
  · exact goto_redirects ..

theorem lmmixNext_redirects (s : State) : Redirects s (lmmixNext s) := by
  unfold lmmixNext
  split
  · split
    · exact gotoRound_redirects ..
    · exact goto_redirects ..
  · split
    · exact goto_redirects ..
    · exact gotoRound_redirects ..

end Sys2Proof.Machine
end

