-- ==== Sys2Proof/Laws/Micro.lean ====
section
/-! SUPPORT. What each micro-operation leaves in each register: one lemma per register per micro-operation. For the ones whose
successor depends on DIR, VAR and RND it is said of their data part, which the successor leaves alone but for `PHASE` and
`RND` (`Redirects`). -/

namespace Sys2Proof.Machine

section
variable (prf : Prf) (s : State) (off : Nat) (h : off + 16 ≤ 32)

/-! ### ksinit -/

@[simp] theorem ksinit_key : (ksinit s).key = s.key := by simp [ksinit]
@[simp] theorem ksinit_din : (ksinit s).din = s.din := by simp [ksinit]
@[simp] theorem ksinit_dout : (ksinit s).dout = s.dout := by simp [ksinit]
@[simp] theorem ksinit_ctr : (ksinit s).ctr = zeroBytes 16 := by simp [ksinit]
@[simp] theorem ksinit_wk : (ksinit s).wk = s.wk := by simp [ksinit]
@[simp] theorem ksinit_rk : (ksinit s).rk = s.rk := by simp [ksinit]
@[simp] theorem ksinit_lbuf : (ksinit s).lbuf = s.lbuf := by simp [ksinit]
@[simp] theorem ksinit_rbuf : (ksinit s).rbuf = s.rbuf := by simp [ksinit]
@[simp] theorem ksinit_cbuf : (ksinit s).cbuf = s.cbuf := by simp [ksinit]
@[simp] theorem ksinit_pout : (ksinit s).pout = s.pout := by simp [ksinit]
@[simp] theorem ksinit_cmdr : (ksinit s).cmdr = s.cmdr := by simp [ksinit]
@[simp] theorem ksinit_phase : (ksinit s).phase = .kswk := by simp [ksinit]
@[simp] theorem ksinit_rnd : (ksinit s).rnd = s.rnd := by simp [ksinit]
@[simp] theorem ksinit_status : (ksinit s).status = s.status := by simp [ksinit]
@[simp] theorem ksinit_prfReq : (ksinit s).prfReq = s.prfReq := by simp [ksinit]
@[simp] theorem ksinit_env : (ksinit s).env = s.env := by simp [ksinit]

/-! ### kswk -/

@[simp] theorem kswk_key : (kswk prf s).key = s.key := by simp [kswk, scheduleRequest]
@[simp] theorem kswk_din : (kswk prf s).din = s.din := by simp [kswk, scheduleRequest]
@[simp] theorem kswk_dout : (kswk prf s).dout = s.dout := by simp [kswk, scheduleRequest]
@[simp] theorem kswk_ctr : (kswk prf s).ctr = incLast s.ctr := by simp [kswk, scheduleRequest]
@[simp] theorem kswk_wk : (kswk prf s).wk = prf s.key (incLast s.ctr) := by simp [kswk, scheduleRequest]
@[simp] theorem kswk_rk : (kswk prf s).rk = s.rk := by simp [kswk, scheduleRequest]
@[simp] theorem kswk_lbuf : (kswk prf s).lbuf = s.lbuf := by simp [kswk, scheduleRequest]
@[simp] theorem kswk_rbuf : (kswk prf s).rbuf = s.rbuf := by simp [kswk, scheduleRequest]
@[simp] theorem kswk_cbuf : (kswk prf s).cbuf = s.cbuf := by simp [kswk, scheduleRequest]
@[simp] theorem kswk_pout : (kswk prf s).pout = prf s.key (incLast s.ctr) := by simp [kswk, scheduleRequest]
@[simp] theorem kswk_cmdr : (kswk prf s).cmdr = s.cmdr := by simp [kswk, scheduleRequest]
@[simp] theorem kswk_phase : (kswk prf s).phase = .ksrk := by simp [kswk, scheduleRequest]
@[simp] theorem kswk_rnd : (kswk prf s).rnd = 0#8 := by simp [kswk, scheduleRequest]
@[simp] theorem kswk_status : (kswk prf s).status = s.status := by simp [kswk, scheduleRequest]
@[simp] theorem kswk_prfReq : (kswk prf s).prfReq = none := by simp [kswk, scheduleRequest]
@[simp] theorem kswk_env : (kswk prf s).env = s.env := by simp [kswk, scheduleRequest]

/-! ### ksrkData -/

@[simp] theorem ksrkData_key : (ksrkData prf s).key = s.key := by simp [ksrkData, scheduleRequest]
@[simp] theorem ksrkData_din : (ksrkData prf s).din = s.din := by simp [ksrkData, scheduleRequest]
@[simp] theorem ksrkData_dout : (ksrkData prf s).dout = s.dout := by simp [ksrkData, scheduleRequest]
@[simp] theorem ksrkData_ctr : (ksrkData prf s).ctr = incLast s.ctr := by simp [ksrkData, scheduleRequest]
@[simp] theorem ksrkData_wk : (ksrkData prf s).wk = s.wk := by simp [ksrkData, scheduleRequest]
@[simp] theorem ksrkData_lbuf : (ksrkData prf s).lbuf = s.lbuf := by simp [ksrkData, scheduleRequest]
@[simp] theorem ksrkData_rbuf : (ksrkData prf s).rbuf = s.rbuf := by simp [ksrkData, scheduleRequest]
@[simp] theorem ksrkData_cbuf : (ksrkData prf s).cbuf = s.cbuf := by simp [ksrkData, scheduleRequest]
@[simp] theorem ksrkData_pout : (ksrkData prf s).pout = prf s.key (incLast s.ctr) := by simp [ksrkData, scheduleRequest]
@[simp] theorem ksrkData_cmdr : (ksrkData prf s).cmdr = s.cmdr := by simp [ksrkData, scheduleRequest]
@[simp] theorem ksrkData_phase : (ksrkData prf s).phase = s.phase := by simp [ksrkData, scheduleRequest]
@[simp] theorem ksrkData_rnd : (ksrkData prf s).rnd = s.rnd := by simp [ksrkData, scheduleRequest]
@[simp] theorem ksrkData_status : (ksrkData prf s).status = s.status := by simp [ksrkData, scheduleRequest]
@[simp] theorem ksrkData_prfReq : (ksrkData prf s).prfReq = none := by simp [ksrkData, scheduleRequest]
@[simp] theorem ksrkData_env : (ksrkData prf s).env = s.env := by simp [ksrkData, scheduleRequest]

/-! ### splitData -/

@[simp] theorem splitData_key : (splitData s).key = s.key := by simp [splitData]
@[simp] theorem splitData_din : (splitData s).din = s.din := by simp [splitData]
@[simp] theorem splitData_dout : (splitData s).dout = s.dout := by simp [splitData]
@[simp] theorem splitData_ctr : (splitData s).ctr = s.ctr := by simp [splitData]
@[simp] theorem splitData_wk : (splitData s).wk = s.wk := by simp [splitData]
@[simp] theorem splitData_rk : (splitData s).rk = s.rk := by simp [splitData]
@[simp] theorem splitData_lbuf : (splitData s).lbuf = pad16 (slice s.din 0 8) := by simp [splitData]
@[simp] theorem splitData_rbuf : (splitData s).rbuf = pad16 (slice s.din 8 8) := by simp [splitData]
@[simp] theorem splitData_cbuf : (splitData s).cbuf = s.cbuf := by simp [splitData]
@[simp] theorem splitData_pout : (splitData s).pout = s.pout := by simp [splitData]
@[simp] theorem splitData_cmdr : (splitData s).cmdr = s.cmdr := by simp [splitData]
@[simp] theorem splitData_phase : (splitData s).phase = s.phase := by simp [splitData]
@[simp] theorem splitData_rnd : (splitData s).rnd = s.rnd := by simp [splitData]
@[simp] theorem splitData_status : (splitData s).status = s.status := by simp [splitData]
@[simp] theorem splitData_prfReq : (splitData s).prfReq = s.prfReq := by simp [splitData]
@[simp] theorem splitData_env : (splitData s).env = s.env := by simp [splitData]

/-! ### whiten -/

@[simp] theorem whiten_key : (whiten off h s).key = s.key := by simp [whiten]
@[simp] theorem whiten_din : (whiten off h s).din = s.din := by simp [whiten]
@[simp] theorem whiten_dout : (whiten off h s).dout = s.dout := by simp [whiten]
@[simp] theorem whiten_ctr : (whiten off h s).ctr = s.ctr := by simp [whiten]
@[simp] theorem whiten_wk : (whiten off h s).wk = s.wk := by simp [whiten]
@[simp] theorem whiten_rk : (whiten off h s).rk = s.rk := by simp [whiten]
@[simp] theorem whiten_lbuf : (whiten off h s).lbuf = writeHalf s.lbuf (xorBytes s.left (slice s.wk off 8 (by omega))) := by simp [whiten]
@[simp] theorem whiten_rbuf : (whiten off h s).rbuf = writeHalf s.rbuf (xorBytes s.right (slice s.wk (off + 8) 8 (by omega))) := by simp [whiten]
@[simp] theorem whiten_cbuf : (whiten off h s).cbuf = s.cbuf := by simp [whiten]
@[simp] theorem whiten_pout : (whiten off h s).pout = s.pout := by simp [whiten]
@[simp] theorem whiten_cmdr : (whiten off h s).cmdr = s.cmdr := by simp [whiten]
@[simp] theorem whiten_phase : (whiten off h s).phase = s.phase := by simp [whiten]
@[simp] theorem whiten_rnd : (whiten off h s).rnd = s.rnd := by simp [whiten]
@[simp] theorem whiten_status : (whiten off h s).status = s.status := by simp [whiten]
@[simp] theorem whiten_prfReq : (whiten off h s).prfReq = s.prfReq := by simp [whiten]
@[simp] theorem whiten_env : (whiten off h s).env = s.env := by simp [whiten]

/-! ### flData -/

@[simp] theorem flData_key : (flData prf s).key = s.key := by simp [flData, flRequest, State.left]
@[simp] theorem flData_din : (flData prf s).din = s.din := by simp [flData, flRequest, State.left]
@[simp] theorem flData_dout : (flData prf s).dout = s.dout := by simp [flData, flRequest, State.left]
@[simp] theorem flData_ctr : (flData prf s).ctr = s.ctr := by simp [flData, flRequest, State.left]
@[simp] theorem flData_wk : (flData prf s).wk = s.wk := by simp [flData, flRequest, State.left]
@[simp] theorem flData_rk : (flData prf s).rk = s.rk := by simp [flData, flRequest, State.left]
@[simp] theorem flData_lbuf : (flData prf s).lbuf = writeHalf s.lbuf (xorBytes s.left (trunc8 (prf (s.roundKey s.rnd.toNat) s.rbuf))) := by simp [flData, flRequest, State.left]
@[simp] theorem flData_rbuf : (flData prf s).rbuf = s.rbuf := by simp [flData, flRequest, State.left]
@[simp] theorem flData_cbuf : (flData prf s).cbuf = s.cbuf := by simp [flData, flRequest, State.left]
@[simp] theorem flData_pout : (flData prf s).pout = prf (s.roundKey s.rnd.toNat) s.rbuf := by simp [flData, flRequest, State.left]
@[simp] theorem flData_cmdr : (flData prf s).cmdr = s.cmdr := by simp [flData, flRequest, State.left]
@[simp] theorem flData_phase : (flData prf s).phase = s.phase := by simp [flData, flRequest, State.left]
@[simp] theorem flData_rnd : (flData prf s).rnd = s.rnd := by simp [flData, flRequest, State.left]
@[simp] theorem flData_status : (flData prf s).status = s.status := by simp [flData, flRequest, State.left]
@[simp] theorem flData_prfReq : (flData prf s).prfReq = none := by simp [flData, flRequest, State.left]
@[simp] theorem flData_env : (flData prf s).env = s.env := by simp [flData, flRequest, State.left]

/-! ### frData -/

@[simp] theorem frData_key : (frData prf s).key = s.key := by simp [frData, frRequest, State.right]
@[simp] theorem frData_din : (frData prf s).din = s.din := by simp [frData, frRequest, State.right]
@[simp] theorem frData_dout : (frData prf s).dout = s.dout := by simp [frData, frRequest, State.right]
@[simp] theorem frData_ctr : (frData prf s).ctr = s.ctr := by simp [frData, frRequest, State.right]
@[simp] theorem frData_wk : (frData prf s).wk = s.wk := by simp [frData, frRequest, State.right]
@[simp] theorem frData_rk : (frData prf s).rk = s.rk := by simp [frData, frRequest, State.right]
@[simp] theorem frData_lbuf : (frData prf s).lbuf = s.lbuf := by simp [frData, frRequest, State.right]
@[simp] theorem frData_rbuf : (frData prf s).rbuf = writeHalf s.rbuf (xorBytes s.right (trunc8 (prf (s.roundKey (s.rnd.toNat + 1)) s.lbuf))) := by simp [frData, frRequest, State.right]
@[simp] theorem frData_cbuf : (frData prf s).cbuf = s.cbuf := by simp [frData, frRequest, State.right]
@[simp] theorem frData_pout : (frData prf s).pout = prf (s.roundKey (s.rnd.toNat + 1)) s.lbuf := by simp [frData, frRequest, State.right]
@[simp] theorem frData_cmdr : (frData prf s).cmdr = s.cmdr := by simp [frData, frRequest, State.right]
@[simp] theorem frData_phase : (frData prf s).phase = s.phase := by simp [frData, frRequest, State.right]
@[simp] theorem frData_rnd : (frData prf s).rnd = s.rnd := by simp [frData, frRequest, State.right]
@[simp] theorem frData_status : (frData prf s).status = s.status := by simp [frData, frRequest, State.right]
@[simp] theorem frData_prfReq : (frData prf s).prfReq = none := by simp [frData, frRequest, State.right]
@[simp] theorem frData_env : (frData prf s).env = s.env := by simp [frData, frRequest, State.right]

/-! ### lmmixData -/

@[simp] theorem lmmixData_key : (lmmixData prf s).key = s.key := by simp [lmmixData, lmmixRequest, State.left, State.right]
@[simp] theorem lmmixData_din : (lmmixData prf s).din = s.din := by simp [lmmixData, lmmixRequest, State.left, State.right]
@[simp] theorem lmmixData_dout : (lmmixData prf s).dout = s.dout := by simp [lmmixData, lmmixRequest, State.left, State.right]
@[simp] theorem lmmixData_ctr : (lmmixData prf s).ctr = s.ctr := by simp [lmmixData, lmmixRequest, State.left, State.right]
@[simp] theorem lmmixData_wk : (lmmixData prf s).wk = s.wk := by simp [lmmixData, lmmixRequest, State.left, State.right]
@[simp] theorem lmmixData_rk : (lmmixData prf s).rk = s.rk := by simp [lmmixData, lmmixRequest, State.left, State.right]
@[simp] theorem lmmixData_lbuf : (lmmixData prf s).lbuf = writeHalf s.lbuf (xorBytes s.left (trunc8 (prf (s.roundKey s.rnd.toNat) (combined s)))) := by simp [lmmixData, lmmixRequest, State.left, State.right]
@[simp] theorem lmmixData_rbuf : (lmmixData prf s).rbuf = writeHalf s.rbuf (xorBytes s.right (trunc8 (prf (s.roundKey s.rnd.toNat) (combined s)))) := by simp [lmmixData, lmmixRequest, State.left, State.right]
@[simp] theorem lmmixData_cbuf : (lmmixData prf s).cbuf = combined s := by simp [lmmixData, lmmixRequest, State.left, State.right]
@[simp] theorem lmmixData_pout : (lmmixData prf s).pout = prf (s.roundKey s.rnd.toNat) (combined s) := by simp [lmmixData, lmmixRequest, State.left, State.right]
@[simp] theorem lmmixData_cmdr : (lmmixData prf s).cmdr = s.cmdr := by simp [lmmixData, lmmixRequest, State.left, State.right]
@[simp] theorem lmmixData_phase : (lmmixData prf s).phase = s.phase := by simp [lmmixData, lmmixRequest, State.left, State.right]
@[simp] theorem lmmixData_rnd : (lmmixData prf s).rnd = s.rnd := by simp [lmmixData, lmmixRequest, State.left, State.right]
@[simp] theorem lmmixData_status : (lmmixData prf s).status = s.status := by simp [lmmixData, lmmixRequest, State.left, State.right]
@[simp] theorem lmmixData_prfReq : (lmmixData prf s).prfReq = none := by simp [lmmixData, lmmixRequest, State.left, State.right]
@[simp] theorem lmmixData_env : (lmmixData prf s).env = s.env := by simp [lmmixData, lmmixRequest, State.left, State.right]

/-! ### lmsig -/

@[simp] theorem lmsig_key : (lmsig s).key = s.key := by simp [lmsig]
@[simp] theorem lmsig_din : (lmsig s).din = s.din := by simp [lmsig]
@[simp] theorem lmsig_dout : (lmsig s).dout = s.dout := by simp [lmsig]
@[simp] theorem lmsig_ctr : (lmsig s).ctr = s.ctr := by simp [lmsig]
@[simp] theorem lmsig_wk : (lmsig s).wk = s.wk := by simp [lmsig]
@[simp] theorem lmsig_rk : (lmsig s).rk = s.rk := by simp [lmsig]
@[simp] theorem lmsig_lbuf : (lmsig s).lbuf = writeHalf s.lbuf (sigma s.left) := by simp [lmsig]
@[simp] theorem lmsig_rbuf : (lmsig s).rbuf = s.rbuf := by simp [lmsig]
@[simp] theorem lmsig_cbuf : (lmsig s).cbuf = s.cbuf := by simp [lmsig]
@[simp] theorem lmsig_pout : (lmsig s).pout = s.pout := by simp [lmsig]
@[simp] theorem lmsig_cmdr : (lmsig s).cmdr = s.cmdr := by simp [lmsig]
@[simp] theorem lmsig_phase : (lmsig s).phase = .lmmix := by simp [lmsig]
@[simp] theorem lmsig_rnd : (lmsig s).rnd = s.rnd + 1#8 := by simp [lmsig]
@[simp] theorem lmsig_status : (lmsig s).status = s.status := by simp [lmsig]
@[simp] theorem lmsig_prfReq : (lmsig s).prfReq = s.prfReq := by simp [lmsig]
@[simp] theorem lmsig_env : (lmsig s).env = s.env := by simp [lmsig]

/-! ### lmisig -/

@[simp] theorem lmisig_key : (lmisig s).key = s.key := by simp [lmisig]
@[simp] theorem lmisig_din : (lmisig s).din = s.din := by simp [lmisig]
@[simp] theorem lmisig_dout : (lmisig s).dout = s.dout := by simp [lmisig]
@[simp] theorem lmisig_ctr : (lmisig s).ctr = s.ctr := by simp [lmisig]
@[simp] theorem lmisig_wk : (lmisig s).wk = s.wk := by simp [lmisig]
@[simp] theorem lmisig_rk : (lmisig s).rk = s.rk := by simp [lmisig]
@[simp] theorem lmisig_lbuf : (lmisig s).lbuf = writeHalf s.lbuf (sigmaInv s.left) := by simp [lmisig]
@[simp] theorem lmisig_rbuf : (lmisig s).rbuf = s.rbuf := by simp [lmisig]
@[simp] theorem lmisig_cbuf : (lmisig s).cbuf = s.cbuf := by simp [lmisig]
@[simp] theorem lmisig_pout : (lmisig s).pout = s.pout := by simp [lmisig]
@[simp] theorem lmisig_cmdr : (lmisig s).cmdr = s.cmdr := by simp [lmisig]
@[simp] theorem lmisig_phase : (lmisig s).phase = .lmmix := by simp [lmisig]
@[simp] theorem lmisig_rnd : (lmisig s).rnd = s.rnd := by simp [lmisig]
@[simp] theorem lmisig_status : (lmisig s).status = s.status := by simp [lmisig]
@[simp] theorem lmisig_prfReq : (lmisig s).prfReq = s.prfReq := by simp [lmisig]
@[simp] theorem lmisig_env : (lmisig s).env = s.env := by simp [lmisig]

/-! ### merge -/

@[simp] theorem merge_key : (merge s).key = s.key := by simp [merge]
@[simp] theorem merge_din : (merge s).din = s.din := by simp [merge]
@[simp] theorem merge_dout : (merge s).dout = cat s.left s.right := by simp [merge]
@[simp] theorem merge_ctr : (merge s).ctr = s.ctr := by simp [merge]
@[simp] theorem merge_wk : (merge s).wk = s.wk := by simp [merge]
@[simp] theorem merge_rk : (merge s).rk = s.rk := by simp [merge]
@[simp] theorem merge_lbuf : (merge s).lbuf = s.lbuf := by simp [merge]
@[simp] theorem merge_rbuf : (merge s).rbuf = s.rbuf := by simp [merge]
@[simp] theorem merge_cbuf : (merge s).cbuf = s.cbuf := by simp [merge]
@[simp] theorem merge_pout : (merge s).pout = s.pout := by simp [merge]
@[simp] theorem merge_cmdr : (merge s).cmdr = s.cmdr := by simp [merge]
@[simp] theorem merge_phase : (merge s).phase = .erase := by simp [merge]
@[simp] theorem merge_rnd : (merge s).rnd = s.rnd := by simp [merge]
@[simp] theorem merge_status : (merge s).status = s.status := by simp [merge]
@[simp] theorem merge_prfReq : (merge s).prfReq = s.prfReq := by simp [merge]
@[simp] theorem merge_env : (merge s).env = s.env := by simp [merge]

/-! ### erase -/

@[simp] theorem erase_key : (erase s).key = zeroBytes 32 := by simp [erase]
@[simp] theorem erase_din : (erase s).din = zeroBytes 16 := by simp [erase]
@[simp] theorem erase_dout : (erase s).dout = s.dout := by simp [erase]
@[simp] theorem erase_ctr : (erase s).ctr = zeroBytes 16 := by simp [erase]
@[simp] theorem erase_wk : (erase s).wk = zeroBytes 32 := by simp [erase]
@[simp] theorem erase_rk : (erase s).rk = Vector.replicate Config.nrMax (zeroBytes 32) := by simp [erase]
@[simp] theorem erase_lbuf : (erase s).lbuf = zeroBytes 16 := by simp [erase]
@[simp] theorem erase_rbuf : (erase s).rbuf = zeroBytes 16 := by simp [erase]
@[simp] theorem erase_cbuf : (erase s).cbuf = zeroBytes 16 := by simp [erase]
@[simp] theorem erase_pout : (erase s).pout = zeroBytes 32 := by simp [erase]
@[simp] theorem erase_cmdr : (erase s).cmdr = s.cmdr := by simp [erase]
@[simp] theorem erase_phase : (erase s).phase = .idle := by simp [erase]
@[simp] theorem erase_rnd : (erase s).rnd = 0#8 := by simp [erase]
@[simp] theorem erase_status : (erase s).status = .done := by simp [erase]
@[simp] theorem erase_prfReq : (erase s).prfReq = s.prfReq := by simp [erase]
@[simp] theorem erase_env : (erase s).env = s.env := by simp [erase]

end

/-- The round-key file after KSRK's store (spec/40_keyschedule.md, R123). -/
theorem ksrkData_rk (prf : Prf) (s : State) (i : Fin Config.nrMax) :
    (ksrkData prf s).rk[i] = if s.rnd.toNat = i.val then prf s.key (incLast s.ctr) else s.rk[i] := by
  unfold ksrkData
  rw [storeRoundKey_rk]
  rfl

/-! ### What each micro-operation does to the data, `PHASE` and `RND` aside -/

section
variable (prf : Prf) (s : State)

theorem ksrk_redirects : Redirects (ksrkData prf s) (ksrk prf s) := ksrkNext_redirects _
theorem split_redirects : Redirects (splitData s) (split s) := splitNext_redirects _
theorem wha_redirects : Redirects (whiten 0 (by decide) s) (wha s) := whaNext_redirects _
theorem whb_redirects : Redirects (whiten 16 (by decide) s) (whb s) := whbNext_redirects _
theorem fl_redirects : Redirects (flData prf s) (fl prf s) := flNext_redirects _
theorem fr_redirects : Redirects (frData prf s) (fr prf s) := frNext_redirects _
theorem lmmix_redirects : Redirects (lmmixData prf s) (lmmix prf s) := lmmixNext_redirects _

end

section
variable (prf : Prf) (s : State)

@[simp] theorem ksrk_key : (ksrk prf s).key = (ksrkData prf s).key := (ksrk_redirects prf s).key
@[simp] theorem ksrk_din : (ksrk prf s).din = (ksrkData prf s).din := (ksrk_redirects prf s).din
@[simp] theorem ksrk_dout : (ksrk prf s).dout = (ksrkData prf s).dout := (ksrk_redirects prf s).dout
@[simp] theorem ksrk_ctr : (ksrk prf s).ctr = (ksrkData prf s).ctr := (ksrk_redirects prf s).ctr
@[simp] theorem ksrk_wk : (ksrk prf s).wk = (ksrkData prf s).wk := (ksrk_redirects prf s).wk
@[simp] theorem ksrk_rk : (ksrk prf s).rk = (ksrkData prf s).rk := (ksrk_redirects prf s).rk
@[simp] theorem ksrk_lbuf : (ksrk prf s).lbuf = (ksrkData prf s).lbuf := (ksrk_redirects prf s).lbuf
@[simp] theorem ksrk_rbuf : (ksrk prf s).rbuf = (ksrkData prf s).rbuf := (ksrk_redirects prf s).rbuf
@[simp] theorem ksrk_cbuf : (ksrk prf s).cbuf = (ksrkData prf s).cbuf := (ksrk_redirects prf s).cbuf
@[simp] theorem ksrk_pout : (ksrk prf s).pout = (ksrkData prf s).pout := (ksrk_redirects prf s).pout
@[simp] theorem ksrk_cmdr : (ksrk prf s).cmdr = (ksrkData prf s).cmdr := (ksrk_redirects prf s).cmdr
@[simp] theorem ksrk_status : (ksrk prf s).status = (ksrkData prf s).status := (ksrk_redirects prf s).status
@[simp] theorem ksrk_prfReq : (ksrk prf s).prfReq = (ksrkData prf s).prfReq := (ksrk_redirects prf s).prfReq
@[simp] theorem ksrk_env : (ksrk prf s).env = (ksrkData prf s).env := (ksrk_redirects prf s).env

@[simp] theorem split_key : (split s).key = (splitData s).key := (split_redirects s).key
@[simp] theorem split_din : (split s).din = (splitData s).din := (split_redirects s).din
@[simp] theorem split_dout : (split s).dout = (splitData s).dout := (split_redirects s).dout
@[simp] theorem split_ctr : (split s).ctr = (splitData s).ctr := (split_redirects s).ctr
@[simp] theorem split_wk : (split s).wk = (splitData s).wk := (split_redirects s).wk
@[simp] theorem split_rk : (split s).rk = (splitData s).rk := (split_redirects s).rk
@[simp] theorem split_lbuf : (split s).lbuf = (splitData s).lbuf := (split_redirects s).lbuf
@[simp] theorem split_rbuf : (split s).rbuf = (splitData s).rbuf := (split_redirects s).rbuf
@[simp] theorem split_cbuf : (split s).cbuf = (splitData s).cbuf := (split_redirects s).cbuf
@[simp] theorem split_pout : (split s).pout = (splitData s).pout := (split_redirects s).pout
@[simp] theorem split_cmdr : (split s).cmdr = (splitData s).cmdr := (split_redirects s).cmdr
@[simp] theorem split_status : (split s).status = (splitData s).status := (split_redirects s).status
@[simp] theorem split_prfReq : (split s).prfReq = (splitData s).prfReq := (split_redirects s).prfReq
@[simp] theorem split_env : (split s).env = (splitData s).env := (split_redirects s).env

@[simp] theorem wha_key : (wha s).key = (whiten 0 (by decide) s).key := (wha_redirects s).key
@[simp] theorem wha_din : (wha s).din = (whiten 0 (by decide) s).din := (wha_redirects s).din
@[simp] theorem wha_dout : (wha s).dout = (whiten 0 (by decide) s).dout := (wha_redirects s).dout
@[simp] theorem wha_ctr : (wha s).ctr = (whiten 0 (by decide) s).ctr := (wha_redirects s).ctr
@[simp] theorem wha_wk : (wha s).wk = (whiten 0 (by decide) s).wk := (wha_redirects s).wk
@[simp] theorem wha_rk : (wha s).rk = (whiten 0 (by decide) s).rk := (wha_redirects s).rk
@[simp] theorem wha_lbuf : (wha s).lbuf = (whiten 0 (by decide) s).lbuf := (wha_redirects s).lbuf
@[simp] theorem wha_rbuf : (wha s).rbuf = (whiten 0 (by decide) s).rbuf := (wha_redirects s).rbuf
@[simp] theorem wha_cbuf : (wha s).cbuf = (whiten 0 (by decide) s).cbuf := (wha_redirects s).cbuf
@[simp] theorem wha_pout : (wha s).pout = (whiten 0 (by decide) s).pout := (wha_redirects s).pout
@[simp] theorem wha_cmdr : (wha s).cmdr = (whiten 0 (by decide) s).cmdr := (wha_redirects s).cmdr
@[simp] theorem wha_status : (wha s).status = (whiten 0 (by decide) s).status := (wha_redirects s).status
@[simp] theorem wha_prfReq : (wha s).prfReq = (whiten 0 (by decide) s).prfReq := (wha_redirects s).prfReq
@[simp] theorem wha_env : (wha s).env = (whiten 0 (by decide) s).env := (wha_redirects s).env

@[simp] theorem whb_key : (whb s).key = (whiten 16 (by decide) s).key := (whb_redirects s).key
@[simp] theorem whb_din : (whb s).din = (whiten 16 (by decide) s).din := (whb_redirects s).din
@[simp] theorem whb_dout : (whb s).dout = (whiten 16 (by decide) s).dout := (whb_redirects s).dout
@[simp] theorem whb_ctr : (whb s).ctr = (whiten 16 (by decide) s).ctr := (whb_redirects s).ctr
@[simp] theorem whb_wk : (whb s).wk = (whiten 16 (by decide) s).wk := (whb_redirects s).wk
@[simp] theorem whb_rk : (whb s).rk = (whiten 16 (by decide) s).rk := (whb_redirects s).rk
@[simp] theorem whb_lbuf : (whb s).lbuf = (whiten 16 (by decide) s).lbuf := (whb_redirects s).lbuf
@[simp] theorem whb_rbuf : (whb s).rbuf = (whiten 16 (by decide) s).rbuf := (whb_redirects s).rbuf
@[simp] theorem whb_cbuf : (whb s).cbuf = (whiten 16 (by decide) s).cbuf := (whb_redirects s).cbuf
@[simp] theorem whb_pout : (whb s).pout = (whiten 16 (by decide) s).pout := (whb_redirects s).pout
@[simp] theorem whb_cmdr : (whb s).cmdr = (whiten 16 (by decide) s).cmdr := (whb_redirects s).cmdr
@[simp] theorem whb_status : (whb s).status = (whiten 16 (by decide) s).status := (whb_redirects s).status
@[simp] theorem whb_prfReq : (whb s).prfReq = (whiten 16 (by decide) s).prfReq := (whb_redirects s).prfReq
@[simp] theorem whb_env : (whb s).env = (whiten 16 (by decide) s).env := (whb_redirects s).env

@[simp] theorem fl_key : (fl prf s).key = (flData prf s).key := (fl_redirects prf s).key
@[simp] theorem fl_din : (fl prf s).din = (flData prf s).din := (fl_redirects prf s).din
@[simp] theorem fl_dout : (fl prf s).dout = (flData prf s).dout := (fl_redirects prf s).dout
@[simp] theorem fl_ctr : (fl prf s).ctr = (flData prf s).ctr := (fl_redirects prf s).ctr
@[simp] theorem fl_wk : (fl prf s).wk = (flData prf s).wk := (fl_redirects prf s).wk
@[simp] theorem fl_rk : (fl prf s).rk = (flData prf s).rk := (fl_redirects prf s).rk
@[simp] theorem fl_lbuf : (fl prf s).lbuf = (flData prf s).lbuf := (fl_redirects prf s).lbuf
@[simp] theorem fl_rbuf : (fl prf s).rbuf = (flData prf s).rbuf := (fl_redirects prf s).rbuf
@[simp] theorem fl_cbuf : (fl prf s).cbuf = (flData prf s).cbuf := (fl_redirects prf s).cbuf
@[simp] theorem fl_pout : (fl prf s).pout = (flData prf s).pout := (fl_redirects prf s).pout
@[simp] theorem fl_cmdr : (fl prf s).cmdr = (flData prf s).cmdr := (fl_redirects prf s).cmdr
@[simp] theorem fl_status : (fl prf s).status = (flData prf s).status := (fl_redirects prf s).status
@[simp] theorem fl_prfReq : (fl prf s).prfReq = (flData prf s).prfReq := (fl_redirects prf s).prfReq
@[simp] theorem fl_env : (fl prf s).env = (flData prf s).env := (fl_redirects prf s).env

@[simp] theorem fr_key : (fr prf s).key = (frData prf s).key := (fr_redirects prf s).key
@[simp] theorem fr_din : (fr prf s).din = (frData prf s).din := (fr_redirects prf s).din
@[simp] theorem fr_dout : (fr prf s).dout = (frData prf s).dout := (fr_redirects prf s).dout
@[simp] theorem fr_ctr : (fr prf s).ctr = (frData prf s).ctr := (fr_redirects prf s).ctr
@[simp] theorem fr_wk : (fr prf s).wk = (frData prf s).wk := (fr_redirects prf s).wk
@[simp] theorem fr_rk : (fr prf s).rk = (frData prf s).rk := (fr_redirects prf s).rk
@[simp] theorem fr_lbuf : (fr prf s).lbuf = (frData prf s).lbuf := (fr_redirects prf s).lbuf
@[simp] theorem fr_rbuf : (fr prf s).rbuf = (frData prf s).rbuf := (fr_redirects prf s).rbuf
@[simp] theorem fr_cbuf : (fr prf s).cbuf = (frData prf s).cbuf := (fr_redirects prf s).cbuf
@[simp] theorem fr_pout : (fr prf s).pout = (frData prf s).pout := (fr_redirects prf s).pout
@[simp] theorem fr_cmdr : (fr prf s).cmdr = (frData prf s).cmdr := (fr_redirects prf s).cmdr
@[simp] theorem fr_status : (fr prf s).status = (frData prf s).status := (fr_redirects prf s).status
@[simp] theorem fr_prfReq : (fr prf s).prfReq = (frData prf s).prfReq := (fr_redirects prf s).prfReq
@[simp] theorem fr_env : (fr prf s).env = (frData prf s).env := (fr_redirects prf s).env

@[simp] theorem lmmix_key : (lmmix prf s).key = (lmmixData prf s).key := (lmmix_redirects prf s).key
@[simp] theorem lmmix_din : (lmmix prf s).din = (lmmixData prf s).din := (lmmix_redirects prf s).din
@[simp] theorem lmmix_dout : (lmmix prf s).dout = (lmmixData prf s).dout := (lmmix_redirects prf s).dout
@[simp] theorem lmmix_ctr : (lmmix prf s).ctr = (lmmixData prf s).ctr := (lmmix_redirects prf s).ctr
@[simp] theorem lmmix_wk : (lmmix prf s).wk = (lmmixData prf s).wk := (lmmix_redirects prf s).wk
@[simp] theorem lmmix_rk : (lmmix prf s).rk = (lmmixData prf s).rk := (lmmix_redirects prf s).rk
@[simp] theorem lmmix_lbuf : (lmmix prf s).lbuf = (lmmixData prf s).lbuf := (lmmix_redirects prf s).lbuf
@[simp] theorem lmmix_rbuf : (lmmix prf s).rbuf = (lmmixData prf s).rbuf := (lmmix_redirects prf s).rbuf
@[simp] theorem lmmix_cbuf : (lmmix prf s).cbuf = (lmmixData prf s).cbuf := (lmmix_redirects prf s).cbuf
@[simp] theorem lmmix_pout : (lmmix prf s).pout = (lmmixData prf s).pout := (lmmix_redirects prf s).pout
@[simp] theorem lmmix_cmdr : (lmmix prf s).cmdr = (lmmixData prf s).cmdr := (lmmix_redirects prf s).cmdr
@[simp] theorem lmmix_status : (lmmix prf s).status = (lmmixData prf s).status := (lmmix_redirects prf s).status
@[simp] theorem lmmix_prfReq : (lmmix prf s).prfReq = (lmmixData prf s).prfReq := (lmmix_redirects prf s).prfReq
@[simp] theorem lmmix_env : (lmmix prf s).env = (lmmixData prf s).env := (lmmix_redirects prf s).env

end

/-! ### Where each goes next

`PHASE` and `RND` after each micro-operation whose successor depends on DIR, VAR or RND; the others are the `…_phase` and
`…_rnd` lemmas above. -/

section
variable (prf : Prf) (s : State)

/-- The successor of KSRK (R123). -/
theorem ksrk_next : ((ksrk prf s).phase, (ksrk prf s).rnd) =
    if s.rnd.toNat + 1 = s.rounds then (.split, 0#8) else (.ksrk, s.rnd + 1#8) := by
  unfold ksrk ksrkNext State.rounds State.var
  simp only [ksrkData_cmdr, ksrkData_rnd]
  split <;> simp

/-- The successor of SPLIT (R140). -/
theorem split_next : ((split s).phase, (split s).rnd) =
    match s.dir with
    | .encrypt => (.wha, 0#8)
    | .decrypt => (.whb, 0#8) := by
  unfold split splitNext State.dir
  simp only [splitData_cmdr]
  cases dirOf s.cmdr <;> simp

/-- The successor of WHA (R141). -/
theorem wha_next : ((wha s).phase, (wha s).rnd) =
    match s.dir, s.var with
    | .encrypt, .feistel => (.fl, 0#8)
    | .encrypt, .laiMassey => (.lmmix, 0#8)
    | .decrypt, _ => (.merge, s.rnd) := by
  unfold wha whaNext State.dir State.var
  simp only [whiten_cmdr]
  cases dirOf s.cmdr <;> cases varOf s.cmdr <;> simp

/-- The successor of WHB (R142). -/
theorem whb_next : ((whb s).phase, (whb s).rnd) =
    match s.dir, s.var with
    | .encrypt, _ => (.merge, s.rnd)
    | .decrypt, .feistel => (.fr, 6#8)
    | .decrypt, .laiMassey => (.lmmix, 5#8) := by
  unfold whb whbNext State.rounds State.dir State.var
  simp only [whiten_cmdr]
  cases dirOf s.cmdr <;> cases varOf s.cmdr <;> simp [roundsOf, Config.nrF, Config.nrLM]

/-- The successor of FL (R161). -/
theorem fl_next : ((fl prf s).phase, (fl prf s).rnd) =
    match s.dir with
    | .encrypt => (.fr, s.rnd)
    | .decrypt => if s.rnd = 0#8 then (.wha, s.rnd) else (.fr, s.rnd - 2#8) := by
  unfold fl flNext State.dir
  simp only [flData_cmdr, flData_rnd]
  cases dirOf s.cmdr <;> simp
  split <;> simp

/-- The successor of FR (R162). -/
theorem fr_next : ((fr prf s).phase, (fr prf s).rnd) =
    match s.dir with
    | .encrypt => if s.rnd.toNat + 2 = s.rounds then (.whb, 0#8) else (.fl, s.rnd + 2#8)
    | .decrypt => (.fl, s.rnd) := by
  unfold fr frNext State.dir State.rounds State.var
  simp only [frData_cmdr, frData_rnd]
  cases dirOf s.cmdr <;> simp
  split <;> simp

/-- The successor of LMMIX (R184). -/
theorem lmmix_next : ((lmmix prf s).phase, (lmmix prf s).rnd) =
    match s.dir with
    | .encrypt => if s.rnd.toNat + 1 = s.rounds then (.whb, 0#8) else (.lmsig, s.rnd)
    | .decrypt => if s.rnd = 0#8 then (.wha, s.rnd) else (.lmisig, s.rnd - 1#8) := by
  unfold lmmix lmmixNext State.dir State.rounds State.var
  simp only [lmmixData_cmdr, lmmixData_rnd]
  cases dirOf s.cmdr <;> simp <;> split <;> simp

end

end Sys2Proof.Machine
end

