-- ==== Sys2Proof/Laws/PerInstr.lean ====
section
/-! SUPPORT. Statements made per instruction, one lemma per constructor: each instruction's encoding carries the fixed bits
of its row of spec/opcode_table.json. -/

namespace Sys2Proof.Laws

/-- The bits of an encoding, a 4-bit code standing in the low bits. -/
def codeBits : Code → BitVec 32
  | .command w => w
  | .phase c => c.setWidth 32

/-- The row's "mask": the low byte of a command word (spec/30_encoding.md, R95), all four bits of a code (R99). -/
def rowMask : Instr → BitVec 32
  | .encF _ _ _ => 0xFF#32
  | .decF _ _ _ => 0xFF#32
  | .encLM _ _ _ => 0xFF#32
  | .decLM _ _ _ => 0xFF#32
  | .ksinit => 0xF#32
  | .kswk => 0xF#32
  | .ksrk => 0xF#32
  | .split => 0xF#32
  | .wha => 0xF#32
  | .whb => 0xF#32
  | .fl => 0xF#32
  | .fr => 0xF#32
  | .lmmix => 0xF#32
  | .lmsig => 0xF#32
  | .lmisig => 0xF#32
  | .merge => 0xF#32
  | .erase => 0xF#32

/-- The row's "match" (R95, R99). -/
def rowMatch : Instr → BitVec 32
  | .encF _ _ _ => 0x0#32
  | .decF _ _ _ => 0x1#32
  | .encLM _ _ _ => 0x2#32
  | .decLM _ _ _ => 0x3#32
  | .ksinit => 0x1#32
  | .kswk => 0x2#32
  | .ksrk => 0x3#32
  | .split => 0x4#32
  | .wha => 0x5#32
  | .whb => 0x6#32
  | .fl => 0x7#32
  | .fr => 0x8#32
  | .lmmix => 0x9#32
  | .lmsig => 0xA#32
  | .lmisig => 0xB#32
  | .merge => 0xC#32
  | .erase => 0xD#32

/-- The encoding of an instruction carries the fixed bits of its row. -/
def TableRow.Statement (i : Instr) : Prop := codeBits (encode i) &&& rowMask i = rowMatch i

/-- The low byte of a command word is its opcode, whatever the lengths. -/
theorem commandWord_opcode (d : Direction) (v : Variant) (k i o : Nat) :
    commandWord d v k i o &&& 0xFF#32 = commandWord d v 0 0 0 &&& 0xFF#32 := by
  refine BitVec.eq_of_getLsbD_eq fun j _ => ?_
  by_cases h : j < 8
  · simp only [BitVec.getLsbD_and, commandWord_getLsbD, h, if_true]
  · have hz : (0xFF#32).getLsbD j = false := by
      rw [BitVec.getLsbD_ofNat]
      simp only [Bool.and_eq_false_iff]
      exact .inr (Nat.testBit_lt_two_pow (Nat.lt_of_lt_of_le (by decide : 255 < 2 ^ 8)
        (Nat.pow_le_pow_right (by decide) (Nat.le_of_not_lt h))))
    rw [BitVec.getLsbD_and, BitVec.getLsbD_and, hz, Bool.and_false, Bool.and_false]

theorem TableRow.encF (klen ilen olen : Nat) : TableRow.Statement (.encF klen ilen olen) :=
  (commandWord_opcode ..).trans rfl
theorem TableRow.decF (klen ilen olen : Nat) : TableRow.Statement (.decF klen ilen olen) :=
  (commandWord_opcode ..).trans rfl
theorem TableRow.encLM (klen ilen olen : Nat) : TableRow.Statement (.encLM klen ilen olen) :=
  (commandWord_opcode ..).trans rfl
theorem TableRow.decLM (klen ilen olen : Nat) : TableRow.Statement (.decLM klen ilen olen) :=
  (commandWord_opcode ..).trans rfl
theorem TableRow.ksinit : TableRow.Statement .ksinit := rfl
theorem TableRow.kswk : TableRow.Statement .kswk := rfl
theorem TableRow.ksrk : TableRow.Statement .ksrk := rfl
theorem TableRow.split : TableRow.Statement .split := rfl
theorem TableRow.wha : TableRow.Statement .wha := rfl
theorem TableRow.whb : TableRow.Statement .whb := rfl
theorem TableRow.fl : TableRow.Statement .fl := rfl
theorem TableRow.fr : TableRow.Statement .fr := rfl
theorem TableRow.lmmix : TableRow.Statement .lmmix := rfl
theorem TableRow.lmsig : TableRow.Statement .lmsig := rfl
theorem TableRow.lmisig : TableRow.Statement .lmisig := rfl
theorem TableRow.merge : TableRow.Statement .merge := rfl
theorem TableRow.erase : TableRow.Statement .erase := rfl

end Sys2Proof.Laws
end

