-- ==== Sys2Proof/Laws/Step.lean ====
section
/-! SUPPORT. What a step can do, said once: the meaning each arm runs, the event it consumes, and the run of several steps. -/

namespace Sys2Proof.Machine

/-! ### What `exec` runs -/

section
variable (s : State) (k i o : Nat)

@[simp] theorem exec_encF : exec (.encF k i o) s = .next (startCommand .encrypt .feistel k i o s) := rfl
@[simp] theorem exec_decF : exec (.decF k i o) s = .next (startCommand .decrypt .feistel k i o s) := rfl
@[simp] theorem exec_encLM : exec (.encLM k i o) s = .next (startCommand .encrypt .laiMassey k i o s) := rfl
@[simp] theorem exec_decLM : exec (.decLM k i o) s = .next (startCommand .decrypt .laiMassey k i o s) := rfl
@[simp] theorem exec_ksinit : exec .ksinit s = .next (ksinit s) := rfl
@[simp] theorem exec_kswk : exec .kswk s = .next (kswk Config.prf s) := rfl
@[simp] theorem exec_ksrk : exec .ksrk s = .next (ksrk Config.prf s) := rfl
@[simp] theorem exec_split : exec .split s = .next (split s) := rfl
@[simp] theorem exec_wha : exec .wha s = .next (wha s) := rfl
@[simp] theorem exec_whb : exec .whb s = .next (whb s) := rfl
@[simp] theorem exec_fl : exec .fl s = .next (fl Config.prf s) := rfl
@[simp] theorem exec_fr : exec .fr s = .next (fr Config.prf s) := rfl
@[simp] theorem exec_lmmix : exec .lmmix s = .next (lmmix Config.prf s) := rfl
@[simp] theorem exec_lmsig : exec .lmsig s = .next (lmsig s) := rfl
@[simp] theorem exec_lmisig : exec .lmisig s = .next (lmisig s) := rfl
@[simp] theorem exec_merge : exec .merge s = .next (merge s) := rfl
@[simp] theorem exec_erase : exec .erase s = .next (erase s) := rfl

end

/-- The four commands are one START. -/
theorem exec_commandOf (d : Direction) (v : Variant) (k i o : Nat) (s : State) :
    exec (commandOf d v k i o) s = .next (startCommand d v k i o s) := by cases d <;> cases v <;> rfl

/-! ### The core's own step -/

/-- The state after the micro-operation in `PHASE`; an idle core stays. -/
def microStep (s : State) : State :=
  match s.phase with
  | .idle => s
  | .ksinit => ksinit s
  | .kswk => kswk Config.prf s
  | .ksrk => ksrk Config.prf s
  | .split => split s
  | .wha => wha s
  | .whb => whb s
  | .fl => fl Config.prf s
  | .fr => fr Config.prf s
  | .lmmix => lmmix Config.prf s
  | .lmsig => lmsig s
  | .lmisig => lmisig s
  | .merge => merge s
  | .erase => erase s

/-- What a fetched step answers. -/
def runFetched : Fetched → Host.Outcome State Fault Refusal
  | .run i s => exec i s
  | .settled s => .next s

theorem step_eq (s : State) : step s = runFetched (fetch s) := by
  unfold step runFetched
  cases fetch s <;> rfl

/-- The core's own step is the micro-operation in `PHASE`. -/
theorem runFetched_fetchCore (s : State) : runFetched (fetchCore s) = .next (microStep s) := by
  unfold fetchCore microStep
  cases s.phase <;> rfl

/-- A START of any word: the command it spells, or IllegalCommand. -/
theorem runFetched_fetchStart (w : BitVec 32) (s : State) :
    runFetched (fetchStart w s) = .next
      (if rsv0Of w ≠ 0#6 then startIllegal w s
       else startCommand (dirOf w) (varOf w) (klenOf w) (ilenOf w) (olenOf w) s) := by
  unfold fetchStart decodeCommand
  by_cases h : rsv0Of w ≠ 0#6
  · rw [if_pos h, if_pos h]; rfl
  · rw [if_neg h, if_neg h]; exact exec_commandOf ..

/-- With no event to come the core runs by itself. -/
theorem step_alone {s : State} (h : s.env.script = []) : step s = .next (microStep s) := by
  rw [step_eq, fetch, h]; exact runFetched_fetchCore s

/-- The state after one event. -/
def afterEvent (e : Event) (rest : List Event) (s : State) : State :=
  match e with
  | .reset => resetCore (s.withScript rest)
  | .start w k d =>
    let u := (s.withScript rest).drivePorts k d
    if rsv0Of w ≠ 0#6 then startIllegal w u
    else startCommand (dirOf w) (varOf w) (klenOf w) (ilenOf w) (olenOf w) u
  | .coreStep => microStep (s.withScript rest)
  | .wait => if ready s then s.withScript rest else microStep s
  | .read r => (s.withScript rest).afterRead r
  | .prfDelay => holdRequest (s.withScript rest)
  | .prfAnswer => if s.prfReq.isSome then microStep (s.withScript rest) else s.withScript rest

/-- With an event to come, a step is that event. -/
theorem step_event {s : State} {e : Event} {rest : List Event} (h : s.env.script = e :: rest) :
    step s = .next (afterEvent e rest s) := by
  rw [step_eq, fetch, h]
  cases e with
  | reset => rfl
  | start w k d => exact runFetched_fetchStart ..
  | coreStep => exact runFetched_fetchCore _
  | wait =>
    show runFetched (if _ then _ else _) = .next (if _ then _ else _)
    by_cases hr : ready s = true
    · rw [if_pos hr, if_pos hr]; rfl
    · rw [if_neg hr, if_neg hr]; exact runFetched_fetchCore s
  | read r => rfl
  | prfDelay => rfl
  | prfAnswer =>
    show runFetched (if _ then _ else _) = .next (if _ then _ else _)
    by_cases hr : s.prfReq.isSome = true
    · rw [if_pos hr, if_pos hr]; exact runFetched_fetchCore _
    · rw [if_neg hr, if_neg hr]; rfl

/-- INVERSION of a step: every next state is one of these. The environment's part of the state aside, a step is a reset, a
START, the micro-operation in `PHASE`, a request held, or nothing. -/
theorem step_cases {s t : State} (h : step s = .next t) :
    (s.env.script = [] ∧ t = microStep s) ∨ ∃ e rest, s.env.script = e :: rest ∧ t = afterEvent e rest s := by
  cases hs : s.env.script with
  | nil => rw [step_alone hs] at h; cases h; exact .inl ⟨rfl, rfl⟩
  | cons e rest => rw [step_event hs] at h; cases h; exact .inr ⟨e, rest, rfl, rfl⟩

/-! ### Induction over one step -/

/-- What a START of any word keeps, if taking an exception and being accepted keep it. -/
theorem start_ind {P : State → Prop} {s : State} (same : P s)
    (exception : ∀ e w, s.phase = .idle → P (takeException e w s))
    (accepted : ∀ w, s.phase = .idle → P (acceptStart w s)) (w : BitVec 32) :
    P (if rsv0Of w ≠ 0#6 then startIllegal w s
       else startCommand (dirOf w) (varOf w) (klenOf w) (ilenOf w) (olenOf w) s) := by
  split
  · rcases startIllegal_cases w s with ⟨_, h⟩ | ⟨hi, h⟩ <;> rw [h]
    · exact same
    · exact exception _ _ hi
  · rcases startCommand_cases (dirOf w) (varOf w) (klenOf w) (ilenOf w) (olenOf w) s with
      ⟨_, h⟩ | ⟨hi, _, h⟩ | ⟨hi, _, h⟩ <;> rw [h]
    · exact same
    · exact exception _ _ hi
    · exact accepted _ hi

/-- What holds of a step's next state: six cases, the environment being whatever it is in each. -/
theorem step_ind {P : State → Prop} {s t : State} (h : step s = .next t)
    (micro : ∀ e, P (microStep { s with env := e }))
    (same : ∀ e, P { s with env := e })
    (reset : ∀ rest, s.env.script = .reset :: rest → P (resetCore (s.withScript rest)))
    (held : ∀ e, P (holdRequest { s with env := e }))
    (exception : ∀ e env w, s.phase = .idle → P (takeException e w { s with env := env }))
    (accepted : ∀ env w, s.phase = .idle → P (acceptStart w { s with env := env })) : P t := by
  rcases step_cases h with ⟨_, rfl⟩ | ⟨e, rest, he, rfl⟩
  · exact micro s.env
  · cases e with
    | reset => exact reset _ he
    | start w k d =>
      exact start_ind (s := (s.withScript rest).drivePorts k d) (same _) (fun e w' => exception e _ w')
        (fun w' => accepted _ w') w
    | coreStep => exact micro _
    | wait =>
      show P (if ready s then s.withScript rest else microStep s)
      split
      · exact same _
      · exact micro s.env
    | read r => exact same _
    | prfDelay => exact held _
    | prfAnswer =>
      show P (if s.prfReq.isSome then microStep (s.withScript rest) else s.withScript rest)
      split
      · exact micro _
      · exact same _

/-! ### Several steps -/

@[simp] theorem runSteps_zero (s : State) : runSteps 0 s = .next s := rfl

/-- A run goes on from the state of its first step. -/
theorem runSteps_succ {s t : State} (n : Nat) (h : step s = .next t) : runSteps (n + 1) s = runSteps n t := by
  simp only [runSteps, h]

/-- The same of the host's run, for any machine. -/
theorem host_run_next (M : Host.Core) (n : Nat) {s t : M.State} (h : M.step s = .next t) :
    M.run (n + 1) s = M.run n t := by
  simp only [Host.Core.run, h]

/-- A refusal ends the host's run, for any machine. -/
theorem host_run_refused (M : Host.Core) (n : Nat) {s : M.State} {r : M.Refusal} (h : M.step s = .refused r) :
    M.run (n + 1) s = .refused r := by
  simp only [Host.Core.run, h]

/-- The run of `Safety.lean` is the run of the host's machine. -/
theorem runSteps_eq_run (n : Nat) (s : State) : runSteps n s = Host.Core.run core n s := by
  induction n generalizing s with
  | zero => rfl
  | succ n ih =>
    cases h : step s with
    | next t => exact (runSteps_succ n h).trans ((ih t).trans (host_run_next core n h).symm)
    | fault r => exact nomatch r
    | refused r =>
      refine Eq.trans ?_ (host_run_refused core n h).symm
      simp only [runSteps, h]
      rfl

/-- The core's own run for `n` steps. -/
def microRun : Nat → State → State
  | 0, s => s
  | n + 1, s => microRun n (microStep s)

/-- No micro-operation touches the environment. -/
theorem microStep_env (s : State) : (microStep s).env = s.env := by
  unfold microStep
  split <;> simp

/-- With no event to come, a run of the machine is the core's own run. -/
theorem runSteps_alone (n : Nat) {s : State} (h : s.env.script = []) : runSteps n s = .next (microRun n s) := by
  induction n generalizing s with
  | zero => rfl
  | succ n ih => rw [runSteps_succ n (step_alone h)]; exact ih (by rw [microStep_env, h])

end Sys2Proof.Machine
end

