-- ==== Sys2Proof/Tests/Slice0.lean ====
section
/-! SUPPORT. Tests: decoding of every constructor from a word written out from the spec, the refusals of WellFormed, one or two
one-step tests per instruction with values of spec/95_test_vectors.md, and for every obligation with hypotheses a witness
that meets them. `prfT` is the mock PRF of section 2 of that file. -/

namespace Sys2Proof.Machine.Test

/-! ### Helpers -/

/-- `n` bytes from a hex numeral, byte 0 first (spec/00_scope.md, R9). -/
def hex (n w : Nat) : Bytes n := Vector.ofFn fun i => BitVec.ofNat 8 (w >>> (8 * (n - 1 - i.val)))

/-- `PRF_T` of spec/95_test_vectors.md section 2. -/
def prfT : Prf := fun k x =>
  Vector.ofFn fun j => k[j] + x[j.val % 16] + 2#8 * x[(j.val + 5) % 16] + BitVec.ofNat 8 j.val

/-- `K0` of that file. -/
def key0 : Bytes 32 := hex 32 0x000102030405060708090a0b0c0d0e0f101112131415161718191a1b1c1d1e1f

/-- `P1` of that file. -/
def block1 : Bytes 16 := hex 16 0xc1c0e58bd913006feba00f4b3cc3594e

/-- The `PRF_T` whitening material of section 3.1. -/
def wk0 : Bytes 32 := hex 32 0x00020406080a0c0e10121616181a1c1f20222426282a2c2e30323636383a3c3f

/-- The `PRF_T` round keys `RK[0]` to `RK[7]` of section 3.1. -/
def rks : Vector (Bytes 32) 8 :=
  #v[hex 32 0x00020406080a0c0e10121816181a1c2020222426282a2c2e30323836383a3c40,
     hex 32 0x00020406080a0c0e10121a16181a1c2120222426282a2c2e30323a36383a3c41,
     hex 32 0x00020406080a0c0e10121c16181a1c2220222426282a2c2e30323c36383a3c42,
     hex 32 0x00020406080a0c0e10121e16181a1c2320222426282a2c2e30323e36383a3c43,
     hex 32 0x00020406080a0c0e10122016181a1c2420222426282a2c2e30324036383a3c44,
     hex 32 0x00020406080a0c0e10122216181a1c2520222426282a2c2e30324236383a3c45,
     hex 32 0x00020406080a0c0e10122416181a1c2620222426282a2c2e30324436383a3c46,
     hex 32 0x00020406080a0c0e10122616181a1c2720222426282a2c2e30324636383a3c47]

/-- A core in the midst of the command `w` under `K0` with the block `P1`: the micro-operation `p` is next, `RND = r`, the
halves are `l` and `h`. -/
def busy (w : BitVec 32) (p : Phase) (r : Nat) (l h : Nat := 0) : State :=
  { State.reset with
    key := key0, din := block1, wk := wk0, rk := rks, lbuf := pad16 (hex 8 l), rbuf := pad16 (hex 8 h)
    cmdr := w, phase := p, rnd := BitVec.ofNat 8 r, status := .busy }

/-- The same core with events to come. -/
def awaiting (s : State) (script : List Event) : State := { s with env.script := script }

/-- What is next, and with which round index. -/
def control (s : State) : Phase × Nat := (s.phase, s.rnd.toNat)

/-! ### Decoding: words written out from R90 and R95, codes from R99 -/

theorem test_decode_encF : decodeCommand 0b00010000000100000010000000000000#32 = .ok (.encF 32 16 16) := by decide
theorem test_decode_decF : decodeCommand 0b00010000000100000010000000000001#32 = .ok (.decF 32 16 16) := by decide
theorem test_decode_encLM : decodeCommand 0b00010000000100000010000000000010#32 = .ok (.encLM 32 16 16) := by decide
theorem test_decode_decLM : decodeCommand 0b00010000000100000010000000000011#32 = .ok (.decLM 32 16 16) := by decide
theorem test_decode_lengths : decodeCommand 0b11111111000000010000001000000000#32 = .ok (.encF 2 1 255) := by decide
theorem test_decode_rsv0_low : decodeCommand 0x10102004#32 = .error (.illegalCommand 0x10102004#32) := by decide
theorem test_decode_rsv0_high : decodeCommand 0x10102080#32 = .error (.illegalCommand 0x10102080#32) := by decide
theorem test_decode_ksinit : decodePhase 0b0001#4 = .ok .ksinit := by decide
theorem test_decode_kswk : decodePhase 0b0010#4 = .ok .kswk := by decide
theorem test_decode_ksrk : decodePhase 0b0011#4 = .ok .ksrk := by decide
theorem test_decode_split : decodePhase 0b0100#4 = .ok .split := by decide
theorem test_decode_wha : decodePhase 0b0101#4 = .ok .wha := by decide
theorem test_decode_whb : decodePhase 0b0110#4 = .ok .whb := by decide
theorem test_decode_fl : decodePhase 0b0111#4 = .ok .fl := by decide
theorem test_decode_fr : decodePhase 0b1000#4 = .ok .fr := by decide
theorem test_decode_lmmix : decodePhase 0b1001#4 = .ok .lmmix := by decide
theorem test_decode_lmsig : decodePhase 0b1010#4 = .ok .lmsig := by decide
theorem test_decode_lmisig : decodePhase 0b1011#4 = .ok .lmisig := by decide
theorem test_decode_merge : decodePhase 0b1100#4 = .ok .merge := by decide
theorem test_decode_erase : decodePhase 0b1101#4 = .ok .erase := by decide
theorem test_decode_idle : decodePhase 0b0000#4 = .error .idle := by decide
theorem test_decode_reserved :
    decodePhase 0b1110#4 = .error (.reservedPhase 14#4) ∧ decodePhase 0b1111#4 = .error (.reservedPhase 15#4) := by
  decide
theorem test_table_word :
    decodeTableWord 32 0x10102003 = some (.decLM 32 16 16) ∧ decodeTableWord 32 0x02 = some (.encLM 0 0 0) ∧
    decodeTableWord 8 0 = some (.encF 0 0 0) ∧ decodeTableWord 8 10 = some .lmsig ∧ decodeTableWord 32 4 = none := by
  decide

/-! ### WellFormed refuses -/

theorem test_refuses_klen_256 : (Instr.encF 256 16 16).wellFormed = false := by decide
theorem test_refuses_ilen_256 : (Instr.decF 32 256 16).wellFormed = false := by decide
theorem test_refuses_olen_256 : (Instr.encLM 32 16 256).wellFormed = false := by decide
theorem test_refuses_decLM_klen : (Instr.decLM 300 16 16).wellFormed = false := by decide
theorem test_accepts_lengths_255 : (Instr.decLM 255 255 255).wellFormed = true := by decide
theorem test_refuses_odd_feistel_rounds : (RoundCounts.mk 7 6 8).wellFormed = false := by decide
theorem test_refuses_no_feistel_rounds : (RoundCounts.mk 0 6 8).wellFormed = false := by decide
theorem test_refuses_no_lai_massey_rounds : (RoundCounts.mk 8 0 8).wellFormed = false := by decide
theorem test_refuses_too_few_round_keys :
    (RoundCounts.mk 8 6 7).wellFormed = false ∧ (RoundCounts.mk 2 9 8).wellFormed = false := by decide
theorem test_refuses_too_many_round_keys : (RoundCounts.mk 8 6 255).wellFormed = false := by decide
theorem test_accepts_the_bound : (RoundCounts.mk 254 1 254).wellFormed = true := by decide

/-! ### The mock PRF, the orthomorphism (spec/95_test_vectors.md, sections 2 and 4.2) -/

theorem test_prfT_counter : prfT key0 (hex 16 1) = wk0 := by decide +kernel
theorem test_prfT_ones :
    prfT (hex 32 (2 ^ 256 - 1)) (hex 16 (2 ^ 128 - 1)) =
      hex 32 0xfcfdfeff000102030405060708090a0b0c0d0e0f101112131415161718191a1b := by decide +kernel
theorem test_sigma : sigma (hex 8 0x0102030405060708) = hex 8 0x050607080404040c := by decide +kernel
theorem test_sigmaInv :
    sigmaInv (hex 8 0x0102030405060708) = hex 8 0x0404040c01020304 ∧
    sigmaInv (hex 8 0xd0d65724ab11e870) = hex 8 0x7bc7bf54d0d65724 := by decide +kernel

/-! ### The commands: START (spec/44_commands.md R200, spec/95_test_vectors.md section 6.4) -/

theorem test_encF_accepted :
    exec (.encF 32 16 16) (State.reset.drivePorts key0 block1) =
      .next { (State.reset.drivePorts key0 block1) with
        key := key0, din := block1, cmdr := 0x10102000#32, status := .busy, phase := .ksinit } := by rfl
theorem test_encF_key_too_short :
    exec (.encF 31 16 16) State.reset =
      .next { State.reset with cmdr := 0x10101F00#32, status := .sizeMismatch } := by rfl
theorem test_decF_accepted :
    exec (.decF 32 16 16) State.reset =
      .next { State.reset with cmdr := 0x10102001#32, status := .busy, phase := .ksinit } := by rfl
theorem test_decF_output_too_long :
    exec (.decF 32 16 17) State.reset =
      .next { State.reset with cmdr := 0x11102001#32, status := .sizeMismatch } := by rfl
theorem test_encLM_accepted :
    exec (.encLM 32 16 16) State.reset =
      .next { State.reset with cmdr := 0x10102002#32, status := .busy, phase := .ksinit } := by rfl
theorem test_encLM_while_busy :
    exec (.encLM 32 16 16) (busy 0x10102000#32 .merge 0) = .next (busy 0x10102000#32 .merge 0) := by rfl
theorem test_decLM_accepted :
    exec (.decLM 32 16 16) State.reset =
      .next { State.reset with cmdr := 0x10102003#32, status := .busy, phase := .ksinit } := by rfl
theorem test_decLM_block_too_long :
    exec (.decLM 32 255 16) State.reset =
      .next { State.reset with cmdr := 0x10FF2003#32, status := .sizeMismatch } := by rfl
theorem test_illegal_command_wins :
    step (awaiting State.reset [.start 0x00000004#32 key0 block1]) =
      .next { (State.reset.drivePorts key0 block1) with cmdr := 4#32, status := .illegalCommand } := by rfl

/-! ### The micro-operations (spec/95_test_vectors.md, sections 3.1, 4.1, 5.1 to 5.4) -/

theorem test_ksinit : (ksinit { (busy 0x10102000#32 .ksinit 0) with ctr := hex 16 7 }).ctr = zeroBytes 16 := by
  decide +kernel
theorem test_kswk :
    (kswk prfT (busy 0x10102000#32 .kswk 0)).wk = wk0 ∧
    (kswk prfT (busy 0x10102000#32 .kswk 0)).ctr = hex 16 1 ∧
    control (kswk prfT (busy 0x10102000#32 .kswk 0)) = (.ksrk, 0) := by decide +kernel
theorem test_ksrk_last :
    let s := { (busy 0x10102000#32 .ksrk 7) with ctr := hex 16 8, rk := Vector.replicate 8 (zeroBytes 32) }
    (ksrk prfT s).rk[7] = rks[7] ∧ (ksrk prfT s).rk[6] = zeroBytes 32 ∧ control (ksrk prfT s) = (.split, 0) := by
  decide +kernel
theorem test_ksrk_lai_massey :
    control (ksrk prfT (busy 0x10102002#32 .ksrk 5)) = (.split, 0) ∧
    control (ksrk prfT (busy 0x10102002#32 .ksrk 4)) = (.ksrk, 5) := by decide +kernel
theorem test_split :
    (split (busy 0x10102000#32 .split 0)).lbuf = hex 16 0xc1c0e58bd913006f0000000000000000 ∧
    (split (busy 0x10102000#32 .split 0)).rbuf = hex 16 0xeba00f4b3cc3594e0000000000000000 ∧
    control (split (busy 0x10102001#32 .split 0)) = (.whb, 0) := by decide +kernel
theorem test_wha :
    let s := wha (busy 0x10102000#32 .wha 0 0xc1c0e58bd913006f 0xeba00f4b3cc3594e)
    s.left = hex 8 0xc1c2e18dd1190c61 ∧ s.right = hex 8 0xfbb2195d24d94551 ∧ control s = (.fl, 0) := by decide +kernel
theorem test_whb :
    let s := whb (busy 0x10102000#32 .whb 0 0xacc100eb91f15b37 0x95b8a5a9b9d92845)
    s.left = hex 8 0x8ce324cdb9db7719 ∧ s.right = hex 8 0xa58a939f81e3147a ∧ control s = (.merge, 0) := by decide +kernel
theorem test_whb_decrypt :
    control (whb (busy 0x10102001#32 .whb 0)) = (.fr, 6) ∧ control (whb (busy 0x10102003#32 .whb 0)) = (.lmmix, 5) := by
  decide +kernel
theorem test_fl :
    let s := fl prfT (busy 0x10102000#32 .fl 0 0xc1c2e18dd1190c61 0xfbb2195d24d94551)
    s.left = hex 8 0x6cfd20ebe1f15b07 ∧ s.right = hex 8 0xfbb2195d24d94551 ∧ control s = (.fr, 0) ∧
    s.pout = hex 32 0xad3fc16630e85766181b22178859e477dd6ff19660188796484b5247b88914a7 := by decide +kernel
theorem test_fl_decrypt :
    let s := fl prfT (busy 0x10102001#32 .fl 6 0xacc100eb91f15b37 0x1bc2d15d24d94509)
    s.left = hex 8 0x618ee98da1190c29 ∧ control s = (.fr, 4) := by decide +kernel
theorem test_fr :
    let s := fr prfT (busy 0x10102000#32 .fr 0 0x6cfd20ebe1f15b07 0xfbb2195d24d94551)
    s.right = hex 8 0xb5042da9c9d9284d ∧ s.left = hex 8 0x6cfd20ebe1f15b07 ∧ control s = (.fl, 2) ∧
    s.pout = hex 32 0x4eb634f4ed006d1c181b24f91e6700f27ee664241d309d4c484b54294e973022 := by decide +kernel
theorem test_fr_last :
    let s := fr prfT (busy 0x10102000#32 .fr 6 0xacc100eb91f15b37 0x1bc2d15d24d94509)
    s.right = hex 8 0x95b8a5a9b9d92845 ∧ control s = (.whb, 0) := by decide +kernel
theorem test_lmmix :
    let s := lmmix prfT (busy 0x10102002#32 .lmmix 1 0xd0d65724ab11e870 0x41b7478425161e14)
    s.left = hex 8 0x4f86898d3107e009 ∧ s.right = hex 8 0xdee7992dbf00166d ∧ control s = (.lmsig, 1) ∧
    s.cbuf = hex 16 0x916110a08e07f6640000000000000000 := by decide +kernel
theorem test_lmmix_decrypt :
    let s := lmmix prfT (busy 0x10102003#32 .lmmix 5 0x7c157ddcaf38ad2d 0xc14c031bb279fded)
    s.left = hex 8 0x43e9790c8668cff8 ∧ s.right = hex 8 0xfeb007cb9b299f38 ∧ control s = (.lmisig, 4) := by
  decide +kernel
theorem test_lmsig :
    let s := lmsig (busy 0x10102002#32 .lmsig 0 0x7bc7bf54d0d65724 0x41b7478425161e14)
    s.left = hex 8 0xd0d65724ab11e870 ∧ s.right = hex 8 0x41b7478425161e14 ∧ control s = (.lmmix, 1) := by
  decide +kernel
theorem test_lmisig :
    let s := lmisig (busy 0x10102003#32 .lmisig 4 0x43e9790c8668cff8 0xfeb007cb9b299f38)
    s.left = hex 8 0xc581b6f443e9790c ∧ s.right = hex 8 0xfeb007cb9b299f38 ∧ control s = (.lmmix, 4) := by
  decide +kernel
theorem test_merge :
    let s := merge (busy 0x10102000#32 .merge 0 0x8ce324cdb9db7719 0xa58a939f81e3147a)
    s.dout = hex 16 0x8ce324cdb9db7719a58a939f81e3147a ∧ statusDone s.status = false ∧ s.phase = .erase := by
  decide +kernel
theorem test_erase :
    erase { (busy 0x10102000#32 .erase 0 1 2) with dout := block1 } =
      { State.reset with dout := block1, cmdr := 0x10102000#32, status := .done } := by decide +kernel

/-! ### The pure functions against the vectors of sections 5.1 to 5.4 -/

theorem test_cipher_feistel :
    cipher prfT .encrypt .feistel key0 block1 = hex 16 0x8ce324cdb9db7719a58a939f81e3147a ∧
    cipher prfT .decrypt .feistel key0 (hex 16 0x8ce324cdb9db7719a58a939f81e3147a) = block1 := by decide +kernel
theorem test_cipher_lai_massey :
    cipher prfT .encrypt .laiMassey key0 block1 = hex 16 0x5c3759fa87128103f17e352d8a43c1d2 ∧
    cipher prfT .decrypt .laiMassey key0 (hex 16 0x5c3759fa87128103f17e352d8a43c1d2) = block1 := by decide +kernel

/-! ### Witnesses: states and operands that meet the hypotheses of each obligation that has some -/

theorem witness_ConfigurationCheckIsRuleSix : Odd (RoundCounts.mk 7 6 8).nrF := ⟨3, rfl⟩
theorem witness_DecodeOfEncodeIsTheInstruction :
    (Instr.encF 0 255 16).wellFormed = true ∧ (Instr.decLM 255 0 0).wellFormed = true ∧ Instr.erase.wellFormed = true := by
  decide
theorem witness_DecodedCodeIsItsEncoding :
    decode (.command 0xFF00FF02#32) = .ok (.encLM 255 0 255) ∧ decode (.phase 13#4) = .ok .erase := by decide
theorem witness_CommandWordVerdicts :
    (0x10102004#32).extractLsb' 2 6 ≠ 0#6 ∧ (0x00000080#32).extractLsb' 2 6 ≠ 0#6 ∧
    (0x10102003#32).extractLsb' 2 6 = 0#6 ∧ (0xFFFFFF00#32).extractLsb' 2 6 = 0#6 := by decide

/-- An idle core to which the word `w` is presented with `K0` and `P1`. -/
def presented (w : BitVec 32) : State := awaiting State.reset [.start w key0 block1]

/-- A busy core to which the word `w` is presented. -/
def presentedBusy (w : BitVec 32) : State := awaiting (busy 0x10102000#32 .fl 2) [.start w key0 block1]

theorem witness_StartValidatesThenLatches :
    (presented 0x10102000#32).env.script = [.start 0x10102000#32 key0 block1] ∧
    (presented 0x100F2000#32).env.script = [.start 0x100F2000#32 key0 block1] ∧
    (presented 0x10102080#32).env.script = [.start 0x10102080#32 key0 block1] ∧
    (presentedBusy 0x10102000#32).env.script = [.start 0x10102000#32 key0 block1] := ⟨rfl, rfl, rfl, rfl⟩
theorem witness_StartWhileBusyLeavesNoTrace :
    (presentedBusy 0xFF#32).env.script = .start 0xFF#32 key0 block1 :: [] ∧ (presentedBusy 0xFF#32).phase ≠ .idle ∧
    ∃ t, step (presentedBusy 0xFF#32) = .next t := ⟨rfl, by decide, _, step_event rfl⟩
theorem witness_CommandsAreAcceptedWhenIdle : State.reset.phase = .idle := rfl
theorem witness_WrongLengthsRaiseSizeMismatch :
    State.reset.phase = .idle ∧ (commandOf .decrypt .laiMassey 32 16 17).wellFormed = true ∧
    ¬(32 = 32 ∧ 16 = 16 ∧ 17 = 16) ∧ (commandOf .encrypt .feistel 255 16 16).wellFormed = true ∧
    ¬(255 = 32 ∧ 16 = 16 ∧ 16 = 16) := by decide
theorem witness_IllegalCommandWinsOverSizeMismatch :
    (presented 0x00000004#32).env.script = .start 0x00000004#32 key0 block1 :: [] ∧
    (presented 0x00000004#32).phase = .idle ∧ (0x00000004#32).extractLsb' 2 6 ≠ 0#6 := ⟨rfl, rfl, by decide⟩
theorem witness_KsrkDerivesARoundKey :
    (busy 0x10102000#32 .ksrk 7).rnd.toNat < Config.nrMax ∧
    (busy 0x10102000#32 .ksrk 7).rnd.toNat = (busy 0x10102000#32 .ksrk 7).rounds - 1 ∧
    (busy 0x10102002#32 .ksrk 5).rnd.toNat = (busy 0x10102002#32 .ksrk 5).rounds - 1 ∧
    (busy 0x10102002#32 .ksrk 0).rnd.toNat < Config.nrMax ∧
    (busy 0x10102002#32 .ksrk 0).rnd.toNat ≠ (busy 0x10102002#32 .ksrk 0).rounds - 1 := by decide
theorem witness_ScheduleRunFillsTheKeyRegisters :
    (busy 0x10102000#32 .ksinit 0).phase = .ksinit ∧ (busy 0x10102000#32 .ksinit 0).env.script = [] ∧
    (busy 0x10102003#32 .ksinit 0).phase = .ksinit ∧ (busy 0x10102003#32 .ksinit 0).env.script = [] := ⟨rfl, rfl, rfl, rfl⟩
theorem witness_VariantsShareTheFirstRoundKeys :
    let s := busy 0x10102000#32 .ksinit 0
    let u := busy 0x10102003#32 .ksinit 0
    s.phase = .ksinit ∧ s.env.script = [] ∧ u.phase = .ksinit ∧ u.env.script = [] ∧ s.var = .feistel ∧
    u.var = .laiMassey ∧ s.key = u.key ∧ ∃ t₁ t₂, runSteps 10 s = .next t₁ ∧ runSteps 8 u = .next t₂ :=
  ⟨rfl, rfl, rfl, rfl, rfl, rfl, rfl, _, _, runSteps_alone _ rfl, runSteps_alone _ rfl⟩
theorem witness_directions_and_variants :
    ((busy 0x10102000#32 .split 0).dir = .encrypt ∧ (busy 0x10102000#32 .split 0).var = .feistel) ∧
    ((busy 0x10102001#32 .split 0).dir = .decrypt ∧ (busy 0x10102001#32 .split 0).var = .feistel) ∧
    ((busy 0x10102002#32 .split 0).dir = .encrypt ∧ (busy 0x10102002#32 .split 0).var = .laiMassey) ∧
    (busy 0x10102003#32 .split 0).dir = .decrypt ∧ (busy 0x10102003#32 .split 0).var = .laiMassey := by decide
theorem witness_FlUpdatesTheLeftHalf :
    (busy 0x10102000#32 .fl 7).rnd.toNat < Config.nrMax ∧ (busy 0x10102000#32 .fl 7).dir = .encrypt ∧
    ((busy 0x10102001#32 .fl 0).dir = .decrypt ∧ (busy 0x10102001#32 .fl 0).rnd = 0#8) ∧
    (busy 0x10102001#32 .fl 2).dir = .decrypt ∧ (busy 0x10102001#32 .fl 2).rnd ≠ 0#8 := by decide
theorem witness_FrUpdatesTheRightHalf :
    ((busy 0x10102000#32 .fr 6).rnd.toNat + 1 < Config.nrMax ∧ (busy 0x10102000#32 .fr 6).dir = .encrypt ∧
      (busy 0x10102000#32 .fr 6).rnd.toNat + 2 = (busy 0x10102000#32 .fr 6).rounds) ∧
    ((busy 0x10102000#32 .fr 4).rnd.toNat + 1 < Config.nrMax ∧ (busy 0x10102000#32 .fr 4).dir = .encrypt ∧
      (busy 0x10102000#32 .fr 4).rnd.toNat + 2 ≠ (busy 0x10102000#32 .fr 4).rounds) ∧
    (busy 0x10102001#32 .fr 0).rnd.toNat + 1 < Config.nrMax ∧ (busy 0x10102001#32 .fr 0).dir = .decrypt := by decide
theorem witness_LmmixMixesBothHalves :
    ((busy 0x10102002#32 .lmmix 5).rnd.toNat < Config.nrMax ∧ (busy 0x10102002#32 .lmmix 5).dir = .encrypt ∧
      (busy 0x10102002#32 .lmmix 5).rnd.toNat = (busy 0x10102002#32 .lmmix 5).rounds - 1) ∧
    ((busy 0x10102002#32 .lmmix 4).rnd.toNat < Config.nrMax ∧ (busy 0x10102002#32 .lmmix 4).dir = .encrypt ∧
      (busy 0x10102002#32 .lmmix 4).rnd.toNat ≠ (busy 0x10102002#32 .lmmix 4).rounds - 1) ∧
    ((busy 0x10102003#32 .lmmix 0).rnd.toNat < Config.nrMax ∧ (busy 0x10102003#32 .lmmix 0).dir = .decrypt ∧
      (busy 0x10102003#32 .lmmix 0).rnd = 0#8) ∧
    (busy 0x10102003#32 .lmmix 1).rnd.toNat < Config.nrMax ∧ (busy 0x10102003#32 .lmmix 1).dir = .decrypt ∧
      (busy 0x10102003#32 .lmmix 1).rnd ≠ 0#8 := by decide
theorem witness_KsinitClearsTheCounter : (busy 0x10102000#32 .ksinit 0).ctr = zeroBytes 16 := rfl
theorem witness_SequencerFollowsTheTable :
    (let s := busy 0x10102001#32 .fl 6
     OnPath s ∧ s.phase ≠ .idle ∧ s.env.script = [] ∧ ∃ t, step s = .next t) ∧
    (presented (commandWord .decrypt .laiMassey 32 16 16)).phase = .idle ∧
    (presented (commandWord .decrypt .laiMassey 32 16 16)).env.script =
      .start (commandWord .decrypt .laiMassey 32 16 16) key0 block1 :: [] :=
  ⟨⟨⟨rfl, by decide, by decide⟩, by decide, rfl, _, step_alone rfl⟩, rfl, rfl⟩
theorem witness_CommandsRunTheirSequences :
    (busy 0x10102001#32 .ksinit 0).phase = .ksinit ∧ (busy 0x10102001#32 .ksinit 0).env.script = [] := ⟨rfl, rfl⟩
theorem witness_FeistelCommandComputesTheCipher :
    let s := awaiting State.reset [.start (commandWord .decrypt .feistel 32 16 16) key0 block1]
    s.phase = .idle ∧ s.env.script = [.start (commandWord .decrypt .feistel 32 16 16) key0 block1] := ⟨rfl, rfl⟩
theorem witness_LaiMasseyCommandComputesTheCipher :
    let s := awaiting State.reset [.start (commandWord .encrypt .laiMassey 32 16 16) key0 block1]
    s.phase = .idle ∧ s.env.script = [.start (commandWord .encrypt .laiMassey 32 16 16) key0 block1] := ⟨rfl, rfl⟩
theorem witness_ZeroPrfShowsTheWiring : ∀ x y, (fun (_ : Bytes 32) (_ : Bytes 16) => zeroBytes 32) x y = zeroBytes 32 :=
  fun _ _ => rfl
theorem witness_NoHiddenStateBetweenCommands :
    let w := commandWord .encrypt .feistel 32 16 16
    let s := awaiting State.reset [.start w key0 block1]
    let u := awaiting { State.reset with dout := block1, status := .sizeMismatch } [.start w key0 block1]
    s.phase = .idle ∧ u.phase = .idle ∧ s.env.script = [.start w key0 block1] ∧ u.env.script = [.start w key0 block1] ∧
    ∃ t₁ t₂, runSteps (commandSteps .feistel + 1) s = .next t₁ ∧ runSteps (commandSteps .feistel + 1) u = .next t₂ :=
  ⟨rfl, rfl, rfl, rfl, _, _, (runSteps_succ 23 (step_event rfl)).trans (runSteps_alone 23 rfl),
    (runSteps_succ 23 (step_event rfl)).trans (runSteps_alone 23 rfl)⟩
theorem witness_ControlDoesNotSeeData :
    let s := busy 0x10102001#32 .fl 6 1 2
    let u := { (busy 0x10102001#32 .fl 6 3 4) with key := zeroBytes 32 }
    SameControl s u ∧ s ≠ u ∧ ∃ t₁ t₂, step s = .next t₁ ∧ step u = .next t₂ :=
  ⟨⟨rfl, rfl, rfl, rfl, rfl, rfl⟩, fun h => absurd (congrArg State.key h) (by decide +kernel), _, _, step_alone rfl,
    step_alone rfl⟩
theorem witness_BusyCoreReachesIdle :
    OnPath (busy 0x10102002#32 .lmsig 4) ∧ (busy 0x10102002#32 .lmsig 4).phase ≠ .idle ∧
    (busy 0x10102002#32 .lmsig 4).env.script = [] := ⟨⟨rfl, rfl, by decide⟩, by decide, rfl⟩
theorem witness_ResetForgetsTheState : (awaiting (busy 0x10102002#32 .lmmix 4) [.reset]).env.script = .reset :: [] := rfl
theorem witness_InstructionsWriteOnlyTheirParts :
    (∃ t, exec (.encF 32 16 16) State.reset = .next t) ∧ (∃ t, exec .ksrk (busy 0x10102000#32 .ksrk 255) = .next t) ∧
    ∃ t, exec .lmmix (busy 0x10102003#32 .lmmix 3) = .next t := ⟨⟨_, rfl⟩, ⟨_, rfl⟩, _, rfl⟩
theorem witness_OnlyMergeAndResetWriteDout :
    (∃ t, step (busy 0x10102000#32 .merge 0 1 2) = .next t ∧ t.dout ≠ (busy 0x10102000#32 .merge 0 1 2).dout) ∧
    ∃ t, step (awaiting { State.reset with dout := block1 } [.reset]) = .next t ∧ t.dout ≠ block1 :=
  ⟨⟨_, step_alone rfl, by decide +kernel⟩, _, step_event rfl, by decide +kernel⟩
theorem witness_CommandRegistersAreHeldWhileBusy :
    let s := awaiting (busy 0x10102000#32 .fl 2) [.start 0x10102001#32 (zeroBytes 32) (zeroBytes 16)]
    (∃ t, step s = .next t) ∧ s.phase ≠ .idle ∧ s.phase ≠ .erase ∧ ∀ rest, s.env.script ≠ .reset :: rest :=
  ⟨⟨_, step_event rfl⟩, by decide, by decide, fun rest h => by cases h⟩
theorem witness_OnlyEraseEndsACommand :
    let s := busy 0x10102000#32 .erase 0
    (∃ t, step s = .next t ∧ t.phase = .idle) ∧ s.phase ≠ .idle := ⟨⟨_, step_alone rfl, rfl⟩, by decide⟩
theorem witness_HostReadsHaveNoSideEffect :
    (awaiting (busy 0x10102000#32 .fl 2) [.read .dout, .wait]).env.script = .read .dout :: [.wait] := rfl
theorem witness_PaddingStaysZero :
    Padded (busy 0x10102000#32 .fl 2 1 2) ∧ ∃ t, step (busy 0x10102000#32 .fl 2 1 2) = .next t :=
  ⟨⟨slice_pad16 _, slice_pad16 _, by decide +kernel⟩, _, step_alone rfl⟩
theorem witness_IdleCoreHoldsNoKeyMaterial :
    let s := busy 0x10102000#32 .erase 0 1 2
    (s.phase = .idle → Cleared s) ∧ ∃ t, step s = .next t ∧ t.phase = .idle :=
  ⟨fun h => (by cases h), _, step_alone rfl, rfl⟩
theorem witness_StatusTellsBusyDoneOrError :
    StatusAgrees (busy 0x10102000#32 .erase 0) ∧ ∃ t, step (busy 0x10102000#32 .erase 0) = .next t :=
  ⟨by simp [StatusAgrees, busy], _, step_alone rfl⟩

/-- The core right after an accepted START, which meets the whole invariant. -/
def started : State := acceptStart 0x10102000#32 (State.reset.drivePorts key0 block1)

theorem started_inv : Inv started where
  padded := by simp [started, Padded]
  statusAgrees := by simp [started, StatusAgrees]
  erased := fun h => by cases h
  onPath := rfl
  counterCounts := by simp [started, CounterCounts, derivations]
  keysDerived := by simp [started, KeysDerived, derivations]
  unusedZero := by simp [started, UnusedZero]
  portHolds := fun r h => by cases h

theorem witness_EveryStepKeepsTheInvariant : Inv started ∧ ∃ t, step started = .next t := ⟨started_inv, _, step_alone rfl⟩
theorem witness_PrfRequestsFollowTheTable :
    (∃ t, step (busy 0x10102000#32 .ksrk 7) = .next t) ∧
    ((busy 0x10102000#32 .fl 6).env.script = [] ∧ (busy 0x10102000#32 .fl 6).rnd.toNat < Config.nrMax) ∧
    ((busy 0x10102000#32 .fr 6).env.script = [] ∧ (busy 0x10102000#32 .fr 6).rnd.toNat + 1 < Config.nrMax) ∧
    ((busy 0x10102002#32 .lmmix 5).env.script = [] ∧ (busy 0x10102002#32 .lmmix 5).rnd.toNat < Config.nrMax) ∧
    prfRequestOf (busy 0x10102002#32 .lmsig 4) = none :=
  ⟨⟨_, step_alone rfl⟩, ⟨rfl, by decide⟩, ⟨rfl, by decide⟩, ⟨rfl, by decide⟩, rfl⟩
theorem witness_CommandMakesItsPrfRequests :
    ((busy 0x10102002#32 .ksinit 0).phase = .ksinit ∧ (busy 0x10102002#32 .ksinit 0).env.script = []) ∧
    ((busy 0x10102002#32 .ksinit 0).dir = .encrypt ∧ (busy 0x10102001#32 .ksinit 0).dir = .decrypt) ∧
    (∃ u r, runSteps 12 (busy 0x10102000#32 .ksinit 0) = .next u ∧ prfRequestOf u = some r ∧ u.phase = .fl) ∧
    (∃ u r, runSteps 13 (busy 0x10102000#32 .ksinit 0) = .next u ∧ prfRequestOf u = some r ∧ u.phase = .fr) ∧
    ∃ u r, runSteps 10 (busy 0x10102002#32 .ksinit 0) = .next u ∧ prfRequestOf u = some r ∧ u.phase = .lmmix :=
  ⟨⟨rfl, rfl⟩, ⟨rfl, rfl⟩, ⟨_, flRequest _, runSteps_alone 12 rfl, rfl, rfl⟩, ⟨_, frRequest _, runSteps_alone 13 rfl, rfl, rfl⟩,
    _, lmmixRequest _, runSteps_alone 10 rfl, rfl, rfl⟩

/-- The core in KSWK, its request raised and not yet answered, the unit taking its time again. -/
def waiting : State :=
  { started with
    phase := .kswk, prfReq := some { key := key0, input := counterBlock 1 }, env.script := [.prfDelay] }

theorem waiting_inv : Inv waiting where
  padded := by simp [waiting, started, Padded]
  statusAgrees := by simp [waiting, started, StatusAgrees]
  erased := fun h => by cases h
  onPath := rfl
  counterCounts := by simp [waiting, started, CounterCounts, derivations]
  keysDerived := by simp [waiting, started, KeysDerived, derivations]
  unusedZero := by simp [waiting, started, UnusedZero]
  portHolds := fun r h => by
    have e : prfRequestOf waiting = some { key := key0, input := incLast (zeroBytes 16) } := rfl
    rw [e, ← h]
    simp [waiting, ← counterBlock_zero]

theorem witness_WaitingCoreHoldsItsRequest :
    Inv waiting ∧ waiting.env.script = .prfDelay :: [] ∧ waiting.prfReq = some { key := key0, input := counterBlock 1 } ∧
    ∃ t, step waiting = .next t := ⟨waiting_inv, rfl, rfl, _, step_event rfl⟩
theorem witness_StrayPrfResponseIsIgnored :
    (let s := awaiting { (busy 0x10102000#32 .fl 2) with prfReq := some ⟨key0, block1⟩ } [.reset]
     s.env.script = .reset :: [] ∧ ∃ t, step s = .next t) ∧
    (let s := awaiting (busy 0x10102000#32 .fl 2) [.prfAnswer]
     s.env.script = .prfAnswer :: [] ∧ s.prfReq = none ∧ ∃ t, step s = .next t) :=
  ⟨⟨rfl, _, step_event rfl⟩, rfl, rfl, _, step_event rfl⟩
theorem witness_StepRunsTheDecodedInstruction :
    let s := busy 0x10102000#32 .fl 2
    decodePhase (phaseCode s.phase) = .ok .fl ∧ s.env.script = [] ∧
    (awaiting s [.coreStep]).env.script = .coreStep :: [] ∧ (awaiting s [.wait]).env.script = .wait :: [] ∧
    ((awaiting waiting [.prfAnswer]).env.script = .prfAnswer :: [] ∧ (awaiting waiting [.prfAnswer]).prfReq.isSome ∧
      decodePhase (phaseCode (awaiting waiting [.prfAnswer]).phase) = .ok .kswk) ∧
    decodeCommand 0x10102002#32 = .ok (.encLM 32 16 16) ∧
    (presented 0x10102002#32).env.script = .start 0x10102002#32 key0 block1 :: [] :=
  ⟨rfl, rfl, rfl, rfl, ⟨rfl, rfl, rfl⟩, by decide, rfl⟩
theorem witness_IdleCoreWaits :
    State.reset.phase = .idle ∧ State.reset.env.script = [] ∧ (awaiting State.reset [.wait]).env.script = .wait :: [] ∧
    (awaiting State.reset [.coreStep]).env.script = .coreStep :: [] := ⟨rfl, rfl, rfl, rfl⟩

end Sys2Proof.Machine.Test
end

section
/-! PROOF. The configuration check of spec/00_scope.md, rule R6. -/

namespace Sys2Proof

/-- R6's check clause by clause, its `max(NR_F, NR_LM) <= NR_MAX` said of each count by itself. -/
theorem RoundCounts.wellFormed_iff (c : RoundCounts) :
    c.wellFormed = true ↔
      2 ∣ c.nrF ∧ 2 ≤ c.nrF ∧ 1 ≤ c.nrLM ∧ c.nrF ≤ c.nrMax ∧ c.nrLM ≤ c.nrMax ∧ c.nrMax ≤ 254 := by
  simp only [RoundCounts.wellFormed, Bool.and_eq_true, decide_eq_true_eq, Nat.dvd_iff_mod_eq_zero, Nat.max_le, and_assoc]

/-- Feistel rounds come in pairs, `FL` then `FR`, so R6 refuses an odd count. -/
theorem RoundCounts.wellFormed_eq_false_of_odd (c : RoundCounts) (hodd : Odd c.nrF) : c.wellFormed = false := by
  rw [Bool.eq_false_iff]
  intro hwf
  obtain ⟨heven, -⟩ := c.wellFormed_iff.mp hwf
  exact hodd.not_two_dvd_nat heven

/-- The counts this core is built with pass their own check (R6). -/
theorem Config.rounds_wellFormed : Config.rounds.wellFormed = true :=
  Config.rounds.wellFormed_iff.mpr (by decide)

/-- Settles O1: the check is read clause by clause by `RoundCounts.wellFormed_iff`; the counts are the model's constants. -/
theorem configurationCheckIsRuleSix : Obligations.ConfigurationCheckIsRuleSix :=
  ⟨rfl, rfl, rfl, RoundCounts.wellFormed_iff, Config.rounds_wellFormed, RoundCounts.wellFormed_eq_false_of_odd⟩

end Sys2Proof
end

section
/-! PROOF. The registers of spec/10_state.md: their reset values (R43), the only writers of `DOUT` (R26), the padding of the
buffers (R30), and that an idle core holds no key material (R44, R215). -/

namespace Sys2Proof.Machine

/-! ### DOUT -/

/-- The only micro-operation that writes `DOUT` is MERGE (R26, R143). -/
theorem microStep_dout (s : State) :
    (microStep s).dout = if s.phase = .merge then cat s.left s.right else s.dout := by
  unfold microStep
  cases s.phase with
  | merge => rw [if_pos rfl]; exact merge_dout s
  | _ => simp

/-- What a step leaves in `DOUT`, over every event (R26): START, ERASE and a refused START leave the old value. -/
theorem step_dout {s t : State} (h : step s = .next t) :
    t.dout = s.dout ∨ (s.phase = .merge ∧ t.dout = cat s.left s.right) ∨
      (∃ rest, s.env.script = .reset :: rest) ∧ t.dout = zeroBytes 16 := by
  apply step_ind h
  case micro =>
    intro e
    rw [microStep_dout]
    split
    case isTrue hp => exact .inr (.inl ⟨hp, rfl⟩)
    case isFalse => exact .inl rfl
  case same => exact fun _ => .inl rfl
  case reset => exact fun rest hs => .inr (.inr ⟨⟨rest, hs⟩, rfl⟩)
  case held => exact fun _ => .inl (holdRequest_dout _)
  case exception => exact fun _ _ _ _ => .inl rfl
  case accepted => exact fun _ _ _ => .inl rfl

/-- Settles O45: `step_dout` without its first case, the unchanged `DOUT`. -/
theorem onlyMergeAndResetWriteDout : Obligations.OnlyMergeAndResetWriteDout :=
  fun _ _ h hne => (step_dout h).resolve_left hne

/-! ### The padding of the buffers -/

theorem reset_padded : Padded State.reset := by simp [Padded]

/-- A micro-operation leaves a buffer alone, writes its half only, pads it anew or clears it; the padding is zero after each
of the four (R30). -/
theorem microStep_padded {s : State} (h : Padded s) : Padded (microStep s) := by
  obtain ⟨hl, hr, hc⟩ := h
  unfold microStep
  cases s.phase with
  | idle => exact ⟨hl, hr, hc⟩
  | ksinit | kswk | ksrk | merge => simp [Padded, hl, hr, hc]
  | wha | whb | fl | fr | lmsig | lmisig => simp [Padded, slice_writeHalf, hl, hr, hc]
  | split => simp [Padded, slice_pad16, hc]
  | lmmix => simp [Padded, slice_writeHalf, combined, slice_pad16, hl, hr]
  | erase => simp [Padded, slice_zeroBytes]

/-- The padding invariant is kept by every step (R30); only a micro-operation or a reset writes a buffer. -/
theorem step_padded {s t : State} (hpad : Padded s) (h : step s = .next t) : Padded t := by
  apply step_ind h
  case micro => exact fun _ => microStep_padded hpad
  case same => exact fun _ => hpad
  case reset => exact fun _ _ => reset_padded
  case held => intro _; simpa [Padded] using hpad
  case exception => exact fun _ _ _ _ => hpad
  case accepted => exact fun _ _ _ => hpad

/-- Settles O49: the padding is zero at reset and kept by every step. -/
theorem paddingStaysZero : Obligations.PaddingStaysZero := ⟨reset_padded, fun _ _ => step_padded⟩

/-! ### Key material and IDLE -/

theorem reset_cleared : Cleared State.reset := by simp [Cleared]

/-- ERASE clears every register that R44 names (R206). -/
theorem erase_cleared (s : State) : Cleared (erase s) := by simp [Cleared]

theorem holdRequest_cleared {s : State} (h : Cleared s) : Cleared (holdRequest s) := by simpa [Cleared] using h

/-- `PHASE` read off a successor pair of `…_next`. -/
theorem phase_ne_of_next {t : State} {next : Phase × BitVec 8} {p : Phase} (h : (t.phase, t.rnd) = next)
    (hne : next.1 ≠ p) : t.phase ≠ p := by
  rwa [← h] at hne

/-- No micro-operation but ERASE has IDLE as its successor (R205, R207). -/
theorem microStep_phase_ne_idle {s : State} (hidle : s.phase ≠ .idle) (herase : s.phase ≠ .erase) :
    (microStep s).phase ≠ .idle := by
  unfold microStep
  cases hp : s.phase with
  | idle => exact absurd hp hidle
  | erase => exact absurd hp herase
  | ksinit | kswk | lmsig | lmisig | merge => simp
  | ksrk => exact phase_ne_of_next (ksrk_next _ s) (by split <;> simp)
  | split => exact phase_ne_of_next (split_next s) (by split <;> simp)
  | wha => exact phase_ne_of_next (wha_next s) (by split <;> simp)
  | whb => exact phase_ne_of_next (whb_next s) (by split <;> simp)
  | fl => exact phase_ne_of_next (fl_next _ s) (by repeat' split <;> simp)
  | fr => exact phase_ne_of_next (fr_next _ s) (by repeat' split <;> simp)
  | lmmix => exact phase_ne_of_next (lmmix_next _ s) (by repeat' split <;> simp)

/-- A micro-operation that ends in IDLE is ERASE, which clears; an idle core stays as it was. -/
theorem microStep_idle_cleared {s : State} (h : s.phase = .idle → Cleared s) (hidle : (microStep s).phase = .idle) :
    Cleared (microStep s) := by
  by_cases hi : s.phase = .idle
  · have hstay : microStep s = s := by simp only [microStep, hi]
    rw [hstay]
    exact h hi
  · have he : s.phase = .erase := by
      by_contra he
      exact microStep_phase_ne_idle hi he hidle
    have herase : microStep s = erase s := by simp only [microStep, he]
    rw [herase]
    exact erase_cleared s

/-- Every step keeps an idle core free of key material (R44, R215). -/
theorem step_idle_cleared {s t : State} (hclr : s.phase = .idle → Cleared s) (h : step s = .next t) :
    t.phase = .idle → Cleared t := by
  apply step_ind h
  case micro => exact fun _ => microStep_idle_cleared hclr
  case same => exact fun _ => hclr
  case reset => exact fun _ _ _ => reset_cleared
  case held =>
    intro _ hi
    rw [holdRequest_phase] at hi
    exact holdRequest_cleared (hclr hi)
  case exception => exact fun _ _ _ _ => hclr
  case accepted => exact fun _ _ _ hi => nomatch hi

/-- Settles O50: no key material at reset, and none is left by a step that ends in IDLE. -/
theorem idleCoreHoldsNoKeyMaterial : Obligations.IdleCoreHoldsNoKeyMaterial :=
  ⟨fun _ => reset_cleared, fun _ _ => step_idle_cleared⟩

/-! ### The reset values -/

/-- Settles O42: the registers that ERASE also clears are `reset_cleared`, the others are the model's constants. -/
theorem resetValuesAreZero : Obligations.ResetValuesAreZero :=
  ⟨reset_cleared, reset_dout, reset_cmdr, reset_phase, rfl, reset_prfReq⟩

end Sys2Proof.Machine
end

section
/-! PROOF. The sequencer on the paths of the four commands (spec/44_commands.md, R205), and what the key schedule has derived
at each point of them (spec/40_keyschedule.md, R120 to R124). -/

namespace Sys2Proof.Machine

/-! ### The next-phase table -/

/-- Where the sequencer stands: `PHASE` and `RND`. -/
def State.control (s : State) : Phase × Nat := (s.phase, s.rnd.toNat)

/-- The successor pair of a `…_next` lemma, its round index as a number. -/
theorem control_of_next {t : State} {next : Phase × BitVec 8} (h : (t.phase, t.rnd) = next) :
    t.control = (next.1, next.2.toNat) := by
  rw [← h]; rfl

theorem rounds_of_var {s : State} {v : Variant} (h : s.var = v) : s.rounds = roundsOf v := by
  rw [← h]; rfl

theorem rounds_bounds (s : State) : 0 < s.rounds ∧ s.rounds ≤ 8 := by
  cases hv : s.var <;> simp [rounds_of_var hv, roundsOf, Config.nrF, Config.nrLM]

/-- No micro-operation writes `CMDR` (R33). -/
theorem microStep_cmdr (s : State) : (microStep s).cmdr = s.cmdr := by
  unfold microStep
  split <;> simp

/-- On the paths of the four commands the micro-operations follow the table of R205. -/
theorem microStep_control {s : State} (h : OnPath s) :
    (microStep s).control = nextPhase s.phase s.rnd.toNat s.dir s.var := by
  have hb := rounds_bounds s
  have hn : roundsOf s.var = s.rounds := rfl
  unfold microStep
  cases hp : s.phase with simp only [OnPath, hp] at h
  | idle => simp [State.control, nextPhase, hp]
  | ksinit | kswk | lmisig | merge | erase => simp [State.control, nextPhase]
  | ksrk =>
    simp only [control_of_next (ksrk_next _ s), nextPhase, hn]
    split
    · rw [if_neg (by omega)]; rfl
    · rw [if_pos (by omega)]; congr 1; bv_omega
  | split => rw [control_of_next (split_next s)]; cases s.dir <;> rfl
  | wha => rw [control_of_next (wha_next s)]; cases s.dir <;> cases s.var <;> rfl
  | whb => rw [control_of_next (whb_next s)]; cases s.dir <;> cases s.var <;> rfl
  | fl =>
    obtain ⟨-, heven, -⟩ := h
    rw [control_of_next (fl_next _ s)]
    cases s.dir with
    | encrypt => rfl
    | decrypt =>
      simp only [nextPhase]
      split
      · rw [if_neg (by bv_omega)]
      · rw [if_pos (by bv_omega)]; congr 1; bv_omega
  | fr =>
    obtain ⟨hv, heven, hlt⟩ := h
    rw [control_of_next (fr_next _ s)]
    have h8 : s.rounds = 8 := rounds_of_var hv
    cases s.dir with
    | decrypt => rfl
    | encrypt =>
      simp only [nextPhase, hn]
      split
      · rw [if_neg (by omega)]; rfl
      · rw [if_pos (by omega)]; congr 1; bv_omega
  | lmmix =>
    rw [control_of_next (lmmix_next _ s)]
    cases s.dir with
    | encrypt =>
      simp only [nextPhase, hn]
      split
      · rw [if_neg (by omega)]; rfl
      · rw [if_pos (by omega)]
    | decrypt =>
      simp only [nextPhase]
      split
      · rw [if_neg (by bv_omega)]
      · rw [if_pos (by bv_omega)]; congr 1; bv_omega
  | lmsig =>
    simp only [State.control, lmsig_phase, lmsig_rnd, nextPhase]
    congr 1; bv_omega

/-- `OnPath` of a command of the given direction and variant, as a set of control points. -/
def PathPoint (d : Direction) (v : Variant) : Phase × Nat → Prop
  | (.ksrk, r) => r < roundsOf v
  | (.fl, r) | (.fr, r) => v = .feistel ∧ r % 2 = 0 ∧ r < roundsOf v
  | (.lmmix, r) => v = .laiMassey ∧ r < roundsOf v
  | (.lmsig, r) => v = .laiMassey ∧ d = .encrypt ∧ r + 1 < roundsOf v
  | (.lmisig, r) => v = .laiMassey ∧ d = .decrypt ∧ r + 1 < roundsOf v
  | (_, r) => r = 0

theorem onPath_iff_pathPoint (s : State) : OnPath s ↔ PathPoint s.dir s.var s.control := by
  unfold OnPath State.control
  cases s.phase <;> simp [PathPoint, State.rounds, BitVec.toNat_eq]

/-- The table of R205 stays among its own rows. -/
theorem pathPoint_nextPhase {d : Direction} {v : Variant} {p : Phase} {r : Nat} (h : PathPoint d v (p, r)) :
    PathPoint d v (nextPhase p r d v) := by
  have hpos : 0 < roundsOf v := by cases v <;> decide
  cases p with simp only [PathPoint] at h
  | idle | ksinit | kswk | merge | erase => simp [nextPhase, PathPoint, h, hpos]
  | lmsig =>
    obtain ⟨hv, -, hlt⟩ := h
    exact ⟨hv, hlt⟩
  | lmisig =>
    obtain ⟨hv, -, hlt⟩ := h
    exact ⟨hv, by omega⟩
  | split => cases d <;> rfl
  | wha => cases d <;> cases v <;> simp [nextPhase, PathPoint, h, hpos]
  | whb => cases d <;> cases v <;> simp [nextPhase, PathPoint, h, roundsOf, Config.nrF, Config.nrLM]
  | ksrk =>
    simp only [nextPhase]
    split <;> simp only [PathPoint]
    omega
  | fl =>
    obtain ⟨rfl, heven, hlt⟩ := h
    cases d with simp only [nextPhase]
    | encrypt => exact ⟨rfl, heven, hlt⟩
    | decrypt => split <;> simp only [PathPoint, true_and] <;> omega
  | fr =>
    obtain ⟨rfl, heven, hlt⟩ := h
    cases d with simp only [nextPhase]
    | encrypt => split <;> simp only [PathPoint, true_and]; omega
    | decrypt => exact ⟨rfl, heven, hlt⟩
  | lmmix =>
    obtain ⟨rfl, hlt⟩ := h
    cases d <;> simp only [nextPhase] <;> (split <;> simp only [PathPoint, true_and] <;> omega)

/-- No micro-operation leaves the paths of the four commands (R205). -/
theorem microStep_onPath {s : State} (h : OnPath s) : OnPath (microStep s) := by
  have hdir : (microStep s).dir = s.dir := congrArg dirOf (microStep_cmdr s)
  have hvar : (microStep s).var = s.var := congrArg varOf (microStep_cmdr s)
  rw [onPath_iff_pathPoint, hdir, hvar, microStep_control h]
  exact pathPoint_nextPhase ((onPath_iff_pathPoint s).mp h)

/-! ### What the key schedule has derived -/

/-- The phases of a command that come after its key schedule. -/
def Phase.keyed : Phase → Bool
  | .idle | .ksinit | .kswk | .ksrk => false
  | _ => true

theorem derivations_of_keyed {s : State} (h : s.phase.keyed) : derivations s = s.rounds + 1 := by
  unfold derivations
  cases hp : s.phase with
  | idle | ksinit | kswk | ksrk => simp [Phase.keyed, hp] at h
  | _ => rfl

/-- No command derives again after its key schedule: the table leads on to ERASE. -/
theorem keyed_nextPhase {p : Phase} {r : Nat} {d : Direction} {v : Variant} (hk : p.keyed) (he : p ≠ .erase) :
    (nextPhase p r d v).1.keyed := by
  cases p with
  | idle | ksinit | kswk | ksrk => cases hk
  | erase => exact absurd rfl he
  | split | wha | whb => cases d <;> cases v <;> rfl
  | lmsig | lmisig | merge => rfl
  | fl =>
    cases d with
    | encrypt => rfl
    | decrypt => simp only [nextPhase]; split <;> rfl
  | fr =>
    cases d with
    | encrypt => simp only [nextPhase]; split <;> rfl
    | decrypt => rfl
  | lmmix => cases d <;> simp only [nextPhase] <;> split <;> rfl

/-- A derivation call is counted, ERASE begins the count again, and no other micro-operation changes it. -/
theorem derivations_microStep {s : State} (h : OnPath s) :
    derivations (microStep s) =
      if s.phase = .erase then 0
      else if s.phase = .kswk ∨ s.phase = .ksrk then derivations s + 1
      else derivations s := by
  have hrounds : (microStep s).rounds = s.rounds := congrArg (roundsOf ∘ varOf) (microStep_cmdr s)
  have hc := microStep_control h
  cases hp : s.phase with
  | idle | ksinit | kswk | erase => simp [microStep, derivations, hp]
  | ksrk =>
    simp only [OnPath, hp] at h
    simp only [hp, nextPhase, show roundsOf s.var = s.rounds from rfl] at hc
    split at hc <;> obtain ⟨hpt, hrt⟩ := Prod.mk.inj hc
    · simp [derivations, hp, hpt, hrt]
    · have hlast : s.rounds = s.rnd.toNat + 1 := by omega
      simp [derivations, hp, hpt, hrounds, hlast]
  | _ =>
    have hpt : (microStep s).phase = (nextPhase s.phase s.rnd.toNat s.dir s.var).1 := congrArg Prod.fst hc
    have hk : (microStep s).phase.keyed := hpt ▸ keyed_nextPhase (hp ▸ rfl) (by simp [hp])
    rw [derivations_of_keyed hk, derivations_of_keyed (hp ▸ rfl), hrounds]
    simp

/-- `KEY` is held up to ERASE (R24). -/
theorem microStep_key (s : State) : (microStep s).key = if s.phase = .erase then zeroBytes 32 else s.key := by
  unfold microStep
  cases s.phase <;> simp

theorem microStep_ctr (s : State) :
    (microStep s).ctr =
      if s.phase = .ksinit ∨ s.phase = .erase then zeroBytes 16
      else if s.phase = .kswk ∨ s.phase = .ksrk then incLast s.ctr
      else s.ctr := by
  unfold microStep
  cases s.phase <;> simp

/-- The first counter of a command (R120). -/
theorem incLast_zeroBytes : incLast (zeroBytes 16) = counterBlock 1 := by
  rw [← counterBlock_zero, incLast_counterBlock]

/-- Every micro-operation on the paths keeps the counter at the number of derivations (R27). -/
theorem microStep_counterCounts {s : State} (hpath : OnPath s) (h : CounterCounts s) :
    CounterCounts (microStep s) := by
  unfold CounterCounts at *
  rw [microStep_ctr, derivations_microStep hpath, h]
  cases hp : s.phase <;> simp [derivations, hp, incLast_zeroBytes]

/-- The derived keys stay the schedule of `KEY`, and a derivation call adds the next one (R120, R123). -/
theorem microStep_keysDerived {s : State} (hpath : OnPath s) (hctr : CounterCounts s) (h : KeysDerived s) :
    KeysDerived (microStep s) := by
  obtain ⟨hwk, hrk⟩ := h
  unfold KeysDerived
  rw [derivations_microStep hpath]
  unfold CounterCounts at hctr
  cases hp : s.phase with
  | erase => simp
  | kswk => simp [microStep, hp, derivations, scheduleWk, hctr, incLast_zeroBytes]
  | ksrk =>
    have hd : derivations s = s.rnd.toNat + 1 := by simp [derivations, hp]
    refine ⟨fun _ => ?_, fun i hi => ?_⟩
    · simpa [microStep, hp] using hwk (by omega)
    · simp only [microStep, hp, ksrk_rk, ksrkData_rk, ksrk_key, ksrkData_key, hctr, hd]
      split
      · rename_i he
        rw [incLast_counterBlock, scheduleRk, he, Nat.add_comm 2, Nat.add_assoc]
      · have hi' : i.val + 2 ≤ derivations s + 1 := by simpa [hp] using hi
        exact hrk i (by omega)
  | _ => simpa [microStep, hp] using ⟨hwk, hrk⟩

end Sys2Proof.Machine
end

section
/-! PROOF. The PRF port (spec/20_memory.md): the number, the order, the keys and the inputs of the requests of a command (R76).
The control of a command does not depend on its data, so the table alone names, for each of the four commands, the counter or
the round key that each request is made from (`sourceTrace_command`); the invariant `UnderWay` ties the request that the core
does make to that name (`UnderWay.request`). -/

namespace Sys2Proof.Machine

/-! ### The padding of the halves -/

/-- The padding of the two buffers that hold the halves is zero (R30). -/
def HalvesPadded (s : State) : Prop := slice s.lbuf 8 8 = zeroBytes 8 ∧ slice s.rbuf 8 8 = zeroBytes 8

/-- SPLIT pads both buffers, whatever they held (R140); the other micro-operations leave the padding or clear it. -/
theorem microStep_halvesPadded {s : State} (h : s.phase ≠ .split → HalvesPadded s) :
    HalvesPadded (microStep s) := by
  unfold HalvesPadded at *
  cases hp : s.phase with
  | split | erase => simp [microStep, hp]
  | _ =>
    obtain ⟨hl, hr⟩ := h (by simp [hp])
    simp [microStep, hp, hl, hr]

/-- KSRK goes on with the schedule or ends it (R123). -/
theorem ksrk_phase (s : State) : (ksrk Config.prf s).phase = .split ∨ (ksrk Config.prf s).phase = .ksrk := by
  have h := congrArg Prod.fst (ksrk_next Config.prf s)
  split at h
  · exact .inl h
  · exact .inr h

/-! ### A command under way -/

/-- What holds of a command with the master key `k` from its first round-key derivation on. -/
structure UnderWay (k : Bytes 32) (s : State) : Prop where
  key : s.phase ≠ .idle → s.key = k
  onPath : OnPath s
  counterCounts : CounterCounts s
  keysDerived : KeysDerived s
  halvesPadded : s.phase ≠ .ksrk → s.phase ≠ .split → HalvesPadded s

/-- KSINIT and KSWK put the command under way, whatever `RND`, `CTR` and the buffers held. -/
theorem underWay_kswk_ksinit (s : State) : UnderWay s.key (kswk Config.prf (ksinit s)) where
  key _ := by simp
  onPath := by simpa [OnPath] using (rounds_bounds (kswk Config.prf (ksinit s))).1
  counterCounts := by simp [CounterCounts, derivations, incLast_zeroBytes]
  keysDerived := by simp [KeysDerived, derivations, scheduleWk, incLast_zeroBytes]
  halvesPadded h := absurd (kswk_phase ..) h

/-- Every micro-operation keeps a command under way; after ERASE its key is gone (R206). -/
theorem UnderWay.next {k : Bytes 32} {s : State} (h : UnderWay k s) : UnderWay k (microStep s) where
  key hidle := by
    by_cases he : s.phase = .erase
    · simp [microStep, he] at hidle
    · rw [microStep_key, if_neg he]
      refine h.key fun hi => hidle ?_
      simp [microStep, hi]
  onPath := microStep_onPath h.onPath
  counterCounts := microStep_counterCounts h.onPath h.counterCounts
  keysDerived := microStep_keysDerived h.onPath h.counterCounts h.keysDerived
  halvesPadded hksrk hsplit := by
    refine microStep_halvesPadded (h.halvesPadded fun hp => ?_)
    simp only [microStep, hp] at hksrk hsplit
    exact (ksrk_phase s).elim hsplit hksrk

/-- After the key schedule the rounds read its round keys. -/
theorem UnderWay.roundKey {k : Bytes 32} {s : State} {i : Nat} (h : UnderWay k s) (hk : s.phase.keyed)
    (hi : i < s.rounds) : s.roundKey i = scheduleRk Config.prf k i := by
  have hlt : i < Config.nrMax := Nat.lt_of_lt_of_le hi (rounds_bounds s).2
  have hkey : s.key = k := h.key fun hidle => by simp [hidle, Phase.keyed] at hk
  obtain ⟨-, hrk⟩ := h.keysDerived
  rw [roundKey_of_lt s i hlt, ← hkey]
  exact hrk ⟨i, hlt⟩ (by rw [derivations_of_keyed hk]; simp only; omega)

theorem UnderWay.run {k : Bytes 32} (n : Nat) {s : State} (h : UnderWay k s) : UnderWay k (microRun n s) := by
  induction n generalizing s with
  | zero => exact h
  | succ n ih => exact ih h.next

theorem microRun_cmdr (n : Nat) (s : State) : (microRun n s).cmdr = s.cmdr := by
  induction n generalizing s with
  | zero => rfl
  | succ n ih => exact (ih _).trans (microStep_cmdr s)

/-! ### The requests of a command -/

/-- Where the spec takes a request from: a counter value of the key schedule, or a round key. -/
inductive PrfSource where
  | counter (j : Nat)
  | roundKey (i : Nat)

/-- The request under the master key `k` comes from the source. -/
def ComesFrom (k : Bytes 32) (q : PrfRequest) : PrfSource → Prop
  | .counter j => q = { key := k, input := counterBlock j }
  | .roundKey i => q.key = scheduleRk Config.prf k i

/-- The source of the request that is made at a control point (R72, R123). -/
def requestSource : Phase × Nat → Option PrfSource
  | (.kswk, _) => some (.counter 1)
  | (.ksrk, r) => some (.counter (r + 2))
  | (.fl, r) => some (.roundKey r)
  | (.fr, r) => some (.roundKey (r + 1))
  | (.lmmix, r) => some (.roundKey r)
  | _ => none

/-- The sources of the requests of the next `n` micro-operations by the table of R205, from a control point on. -/
def sourceTrace (d : Direction) (v : Variant) : Nat → Phase × Nat → List PrfSource
  | 0, _ => []
  | n + 1, c => (requestSource c).toList ++ sourceTrace d v n (nextPhase c.1 c.2 d v)

/-- A command under way makes the request of its control point. -/
theorem UnderWay.request {k : Bytes 32} {s : State} (h : UnderWay k s) :
    List.Forall₂ (ComesFrom k) (prfRequestOf s).toList (requestSource s.control).toList := by
  have hkey := h.key
  have hctr := h.counterCounts
  have hpath := h.onPath
  unfold CounterCounts at hctr
  unfold prfRequestOf State.control
  cases hp : s.phase with simp only [OnPath, hp] at hpath
  | kswk => simp [requestSource, ComesFrom, scheduleRequest, hctr, derivations, hp, hkey, incLast_zeroBytes]
  | ksrk => simp [requestSource, ComesFrom, scheduleRequest, hctr, derivations, hp, hkey]
  | fl =>
    obtain ⟨-, -, hlt⟩ := hpath
    exact .cons (h.roundKey (hp ▸ rfl) hlt) .nil
  | fr =>
    obtain ⟨hv, heven, hlt⟩ := hpath
    have h8 : s.rounds = 8 := rounds_of_var hv
    exact .cons (h.roundKey (hp ▸ rfl) (by omega)) .nil
  | lmmix =>
    obtain ⟨-, hlt⟩ := hpath
    exact .cons (h.roundKey (hp ▸ rfl) hlt) .nil
  | _ => exact .nil

/-- The requests of a run of the core by itself come, in order, from the sources that the table names. -/
theorem UnderWay.requests {k : Bytes 32} (n : Nat) {s : State} (h : UnderWay k s) (hs : s.env.script = []) :
    List.Forall₂ (ComesFrom k) (requestTrace n s) (sourceTrace s.dir s.var n s.control) := by
  induction n generalizing s with
  | zero => exact .nil
  | succ n ih =>
    have hdir : (microStep s).dir = s.dir := congrArg dirOf (microStep_cmdr s)
    have hvar : (microStep s).var = s.var := congrArg varOf (microStep_cmdr s)
    have hrest := ih h.next (by rw [microStep_env, hs])
    rw [microStep_control h.onPath, hdir, hvar] at hrest
    simp only [requestTrace, step_alone hs, sourceTrace]
    exact List.rel_append h.request hrest

/-- The indices of the round keys in the order in which a command uses them (R76). -/
def roundOrder (v : Variant) : Direction → List Nat
  | .encrypt => List.range (roundsOf v)
  | .decrypt => (List.range (roundsOf v)).reverse

/-- The sources of the `2 N + 1` requests of a command (R76). -/
def commandSources (d : Direction) (v : Variant) : List PrfSource :=
  (List.range (roundsOf v + 1)).map (fun j => .counter (j + 1)) ++ (roundOrder v d).map .roundKey

/-- KSWK takes the first counter; from the first KSRK on the table leads to the other sources, for each of the four
commands. -/
theorem sourceTrace_command (d : Direction) (v : Variant) :
    .counter 1 :: sourceTrace d v (commandSteps v - 2) (.ksrk, 0) = commandSources d v := by
  cases d <;> cases v <;> rfl

/-- KSINIT makes no request, KSWK the first. -/
theorem requestTrace_ksinit {s : State} (hp : s.phase = .ksinit) (hs : s.env.script = []) (n : Nat) :
    requestTrace (n + 2) s = scheduleRequest (ksinit s) :: requestTrace n (kswk Config.prf (ksinit s)) := by
  have h₁ : step s = .next (ksinit s) := (step_alone hs).trans (by simp only [microStep, hp])
  have h₂ : step (ksinit s) = .next (kswk Config.prf (ksinit s)) :=
    (step_alone (by rw [ksinit_env, hs])).trans (by simp only [microStep, ksinit_phase])
  simp [requestTrace, h₁, h₂, prfRequestOf, hp]

/-- The requests of a command come from the sources of R76. -/
theorem requestTrace_command {s : State} (hp : s.phase = .ksinit) (hs : s.env.script = []) :
    List.Forall₂ (ComesFrom s.key) (requestTrace (commandSteps s.var) s) (commandSources s.dir s.var) := by
  have hsteps : commandSteps s.var = commandSteps s.var - 2 + 2 := by cases s.var <;> rfl
  have hrest := (underWay_kswk_ksinit s).requests (commandSteps s.var - 2) (by simp [hs])
  rw [hsteps, requestTrace_ksinit hp hs, ← sourceTrace_command]
  refine .cons ?_ (by simpa [State.control, State.dir, State.var] using hrest)
  simp [ComesFrom, scheduleRequest, incLast_zeroBytes]

theorem length_roundOrder (v : Variant) (d : Direction) : (roundOrder v d).length = roundsOf v := by
  cases d <;> simp [roundOrder]

/-- A command makes `2 N + 1` requests (R76). -/
theorem length_requestTrace {s : State} (hp : s.phase = .ksinit) (hs : s.env.script = []) :
    (requestTrace (commandSteps s.var) s).length = 2 * s.rounds + 1 := by
  rw [(requestTrace_command hp hs).length_eq]
  simp only [commandSources, List.length_append, List.length_map, List.length_range, length_roundOrder, State.rounds]
  omega

/-- The first `N + 1` requests are the key schedule's (R76, R120). -/
theorem take_requestTrace {s : State} (hp : s.phase = .ksinit) (hs : s.env.script = []) :
    (requestTrace (commandSteps s.var) s).take (s.rounds + 1) =
      (List.range (s.rounds + 1)).map fun j => { key := s.key, input := counterBlock (j + 1) } := by
  have h := List.forall₂_take_append _ _ _ (requestTrace_command hp hs)
  rw [List.length_map, List.length_range, List.forall₂_map_right_iff] at h
  rw [← List.forall₂_eq_eq_eq, List.forall₂_map_right_iff]
  exact h

/-- The others carry the round keys in the order of the rounds (R76). -/
theorem keys_drop_requestTrace {s : State} (hp : s.phase = .ksinit) (hs : s.env.script = []) :
    ((requestTrace (commandSteps s.var) s).drop (s.rounds + 1)).map PrfRequest.key =
      (roundOrder s.var s.dir).map (scheduleRk Config.prf s.key) := by
  have h := List.forall₂_drop_append _ _ _ (requestTrace_command hp hs)
  rw [List.length_map, List.length_range, List.forall₂_map_right_iff] at h
  rw [← List.forall₂_eq_eq_eq, List.forall₂_map_left_iff, List.forall₂_map_right_iff]
  exact h

/-- The input of a round request (R76). -/
theorem UnderWay.requestInput {k : Bytes 32} {s : State} {r : PrfRequest} (h : UnderWay k s)
    (hr : prfRequestOf s = some r) :
    (s.phase = .fl → s.var = .feistel ∧ r.input = pad16 s.right) ∧
    (s.phase = .fr → s.var = .feistel ∧ r.input = pad16 s.left) ∧
    (s.phase = .lmmix → s.var = .laiMassey ∧ r.input = pad16 (xorBytes s.left s.right)) := by
  have hpath := h.onPath
  refine ⟨fun hp => ?fl, fun hp => ?fr, fun hp => ?lmmix⟩ <;> simp only [OnPath, hp] at hpath <;>
    simp only [prfRequestOf, hp, Option.some.injEq] at hr <;> subst hr
  case fl =>
    obtain ⟨hv, -, -⟩ := hpath
    obtain ⟨-, hpad⟩ := h.halvesPadded (by simp [hp]) (by simp [hp])
    exact ⟨hv, (pad16_halfOf hpad).symm⟩
  case fr =>
    obtain ⟨hv, -, -⟩ := hpath
    obtain ⟨hpad, -⟩ := h.halvesPadded (by simp [hp]) (by simp [hp])
    exact ⟨hv, (pad16_halfOf hpad).symm⟩
  case lmmix =>
    obtain ⟨hv, -⟩ := hpath
    exact ⟨hv, rfl⟩

/-- From KSINIT a run is in KSINIT, in KSWK, or under way. -/
theorem microRun_ksinit {s : State} (hp : s.phase = .ksinit) (n : Nat) :
    (microRun n s).phase = .ksinit ∨ (microRun n s).phase = .kswk ∨ UnderWay s.key (microRun n s) := by
  have h₁ : microStep s = ksinit s := by simp only [microStep, hp]
  have h₂ : microStep (ksinit s) = kswk Config.prf (ksinit s) := by simp only [microStep, ksinit_phase]
  match n with
  | 0 => exact .inl hp
  | 1 => exact .inr (.inl (by rw [microRun, microRun, h₁, ksinit_phase]))
  | n + 2 => exact .inr (.inr (by rw [microRun, microRun, h₁, h₂]; exact (underWay_kswk_ksinit s).run n))

/-- Settles O55: the requests are the sources of R76 in order (`requestTrace_command`), and the inputs of the round requests
hold in every state of a command under way. -/
theorem commandMakesItsPrfRequests : Obligations.CommandMakesItsPrfRequests := by
  intro s hp hs requests roundKeys
  refine ⟨length_requestTrace hp hs, take_requestTrace hp hs, ?_, fun n u r hu hr => ?_⟩
  · rw [keys_drop_requestTrace hp hs]
    cases s.dir with
    | encrypt => rfl
    | decrypt => exact List.map_reverse
  · obtain rfl := Host.Outcome.next.inj ((runSteps_alone n hs).symm.trans hu)
    have hvar : s.var = (microRun n s).var := congrArg varOf (microRun_cmdr n s).symm
    rw [hvar]
    rcases microRun_ksinit hp n with hphase | hphase | hway
    · simp [hphase]
    · simp [hphase]
    · exact hway.requestInput hr

end Sys2Proof.Machine
end

section
/-! PROOF. The key schedule (spec/40_keyschedule.md): KSINIT and KSWK (R121, R122), the registers after the whole schedule
(R124), and what the two variants share (R127). The run is an induction on the number of round keys derived (`Derived`);
that they are the right ones is `UnderWay`. -/

namespace Sys2Proof.Machine

/-! ### Frames of several micro-operations -/

theorem Part.same_trans {p : Part} {s t u : State} (h : p.same s t) (h' : p.same t u) : p.same s u := by
  cases p <;> exact Eq.trans h' h

theorem OnlyChanges.trans {parts : List Part} {s t u : State} (h : OnlyChanges parts s t)
    (h' : OnlyChanges parts t u) : OnlyChanges parts s u := by
  obtain ⟨hsame, henv⟩ := h
  obtain ⟨hsame', henv'⟩ := h'
  exact ⟨fun p hp => Part.same_trans (hsame p hp) (hsame' p hp), henv'.trans henv⟩

theorem OnlyChanges.mono {parts parts' : List Part} {s t : State} (hsub : parts ⊆ parts')
    (h : OnlyChanges parts s t) : OnlyChanges parts' s t := by
  obtain ⟨hsame, henv⟩ := h
  exact ⟨fun p hp => hsame p fun hin => hp (hsub hin), henv⟩

/-! ### What KSINIT, KSWK and KSRK leave unchanged -/

/-- The increment does not carry out of byte 15 (R122). -/
theorem slice_incLast (x : Bytes 16) : slice (incLast x) 0 15 = slice x 0 15 := by
  ext i hi
  simp [Nat.ne_of_lt hi]

theorem toNat_incLast_last (x : Bytes 16) : (incLast x)[15].toNat = (x[15].toNat + 1) % 256 := by
  simp [BitVec.toNat_add]

theorem ksinit_onlyChanges (s : State) : OnlyChanges (writesOf .ksinit s) s (ksinit s) := by
  refine ⟨fun p hp => ?_, ksinit_env s⟩
  cases p with
  | ctrHead | ctrLast | phase => simp [writesOf] at hp
  | _ => simp [Part.same, State.left, State.right]

/-- From a zero counter KSINIT changes only `PHASE` (R121). -/
theorem ksinit_onlyChanges_phase {s : State} (hctr : s.ctr = zeroBytes 16) : OnlyChanges [.phase] s (ksinit s) := by
  obtain ⟨hsame, henv⟩ := ksinit_onlyChanges s
  refine ⟨fun p hp => ?_, henv⟩
  cases p with
  | ctrHead | ctrLast => simp [Part.same, hctr]
  | phase => simp at hp
  | _ => exact hsame _ (by simp [writesOf])

theorem kswk_onlyChanges (prf : Prf) (s : State) : OnlyChanges (writesOf .kswk s) s (kswk prf s) := by
  refine ⟨fun p hp => ?_, kswk_env prf s⟩
  cases p with
  | ctrLast | pout | wk | rnd | phase | prfPort => simp [writesOf] at hp
  | ctrHead => simp [Part.same, slice_incLast]
  | _ => simp [Part.same, State.left, State.right]

theorem ksrk_onlyChanges (prf : Prf) (s : State) : OnlyChanges (writesOf .ksrk s) s (ksrk prf s) := by
  refine ⟨fun p hp => ?_, by simp⟩
  cases p with
  | ctrLast | pout | rnd | phase | prfPort => simp [writesOf] at hp
  | ctrHead => simp [Part.same, slice_incLast]
  | rk i =>
    have hne : s.rnd.toNat ≠ i.val := by
      intro he
      simp [writesOf, he] at hp
    show (ksrk prf s).rk[i] = s.rk[i]
    rw [ksrk_rk, ksrkData_rk, if_neg hne]
  | _ => simp [Part.same, State.left, State.right]

/-- Settles O11: the register lemmas of KSINIT and its two frames. -/
theorem ksinitClearsTheCounter : Obligations.KsinitClearsTheCounter :=
  fun s => ⟨ksinit s, exec_ksinit s, by simp, ksinit_phase s, ksinit_onlyChanges s, ksinit_onlyChanges_phase⟩

/-- Settles O12: the register lemmas of KSWK, the increment by bytes, and the frame. -/
theorem kswkDerivesTheWhitening : Obligations.KswkDerivesTheWhitening := by
  intro s
  refine ⟨kswk Config.prf s, exec_kswk s, ⟨?last, ?head⟩, by simp, by simp, kswk_rnd .., kswk_phase ..,
    kswk_onlyChanges _ s⟩
  case last => simpa only [kswk_ctr] using toNat_incLast_last s.ctr
  case head => exact fun i hi => by simp [Nat.ne_of_lt hi]

/-! ### The whole schedule -/

/-- The parts that the key schedule writes (R124). -/
def scheduleParts : List Part :=
  [.ctrHead, .ctrLast, .wk, .pout, .rnd, .phase, .prfPort] ++ (List.finRange Config.nrMax).map .rk

theorem writesOf_ksrk_subset (s : State) : writesOf .ksrk s ⊆ scheduleParts := by
  simp only [writesOf]
  split <;> simp [scheduleParts]

/-- `t` is the state in which the schedule begun in `s` has derived `WK` and `j` round keys. -/
structure Derived (s : State) (j : Nat) (t : State) : Prop where
  underWay : UnderWay s.key t
  control : t.control = if j < s.rounds then (.ksrk, j) else (.split, 0)
  later : ∀ i : Fin Config.nrMax, j ≤ i.val → t.rk[i] = s.rk[i]
  pout : t.pout = Config.prf s.key t.ctr
  frame : OnlyChanges scheduleParts s t

/-- KSINIT and KSWK derive `WK`. -/
theorem derived_kswk_ksinit (s : State) : Derived s 0 (kswk Config.prf (ksinit s)) where
  underWay := underWay_kswk_ksinit s
  control := by simp [State.control, (rounds_bounds s).1]
  later i _ := by simp
  pout := by simp
  frame :=
    ((ksinit_onlyChanges s).mono (by simp [writesOf, scheduleParts])).trans
      ((kswk_onlyChanges _ _).mono (by simp [writesOf, scheduleParts]))

theorem Derived.cmdr {s t : State} {j : Nat} (h : Derived s j t) : t.cmdr = s.cmdr := by
  obtain ⟨hsame, -⟩ := h.frame
  exact hsame .cmdr (by simp [scheduleParts])

theorem Derived.rounds {s t : State} {j : Nat} (h : Derived s j t) : t.rounds = s.rounds :=
  congrArg (roundsOf ∘ varOf) h.cmdr

/-- KSRK derives one round key more (R123). -/
theorem Derived.next {s t : State} {j : Nat} (h : Derived s j t) (hj : j < s.rounds) :
    Derived s (j + 1) (microStep t) := by
  have hc := h.control
  rw [if_pos hj] at hc
  obtain ⟨hphase, hrnd⟩ := Prod.mk.inj hc
  have hstep : microStep t = ksrk Config.prf t := by simp only [microStep, hphase]
  have hkey : t.key = s.key := h.underWay.key (by simp [hphase])
  refine ⟨h.underWay.next, ?control, ?later, ?pout, ?frame⟩
  case control =>
    have hn : roundsOf t.var = s.rounds := h.rounds
    rw [microStep_control h.underWay.onPath, hphase, hrnd]
    simp only [nextPhase, hn, Nat.lt_sub_iff_add_lt]
  case later =>
    intro i hi
    rw [hstep, ksrk_rk, ksrkData_rk, if_neg (by omega)]
    exact h.later i (by omega)
  case pout => simp [hstep, hkey]
  case frame =>
    rw [hstep]
    exact h.frame.trans ((ksrk_onlyChanges _ t).mono (writesOf_ksrk_subset t))

/-- A run of `N` more micro-operations derives the `N` round keys. -/
theorem Derived.run {s t : State} {j : Nat} (n : Nat) (h : Derived s j t) (hn : j + n ≤ s.rounds) :
    Derived s (j + n) (microRun n t) := by
  induction n generalizing j t with
  | zero => exact h
  | succ n ih =>
    rw [show j + (n + 1) = j + 1 + n by omega]
    exact ih (h.next (by omega)) (by omega)

/-- `N + 2` micro-operations from KSINIT on are the whole schedule. -/
theorem derived_microRun {s : State} (hp : s.phase = .ksinit) : Derived s s.rounds (microRun (s.rounds + 2) s) := by
  have h₁ : microStep s = ksinit s := by simp only [microStep, hp]
  have h₂ : microStep (ksinit s) = kswk Config.prf (ksinit s) := by simp only [microStep, ksinit_phase]
  have hrun := (derived_kswk_ksinit s).run s.rounds (by omega)
  rwa [Nat.zero_add, ← h₂, ← h₁] at hrun

/-- Settles O14: `Derived` after `N` round keys, the counter and the keys being those of a command under way in SPLIT. -/
theorem scheduleRunFillsTheKeyRegisters : Obligations.ScheduleRunFillsTheKeyRegisters := by
  intro s hp hs
  have h := derived_microRun hp
  have hc := h.control
  rw [if_neg (Nat.lt_irrefl _)] at hc
  obtain ⟨hphase, hrnd⟩ := Prod.mk.inj hc
  have hkey := h.underWay.key (by simp [hphase])
  have hder : derivations (microRun (s.rounds + 2) s) = s.rounds + 1 := by
    rw [derivations_of_keyed (hphase ▸ rfl), h.rounds]
  have hctr : (microRun (s.rounds + 2) s).ctr = counterBlock (s.rounds + 1) :=
    h.underWay.counterCounts.trans (by rw [hder])
  obtain ⟨hwk, hrk⟩ := h.underWay.keysDerived
  rw [hkey, hder] at hwk hrk
  refine ⟨_, runSteps_alone _ hs, hphase, BitVec.eq_of_toNat_eq hrnd, hctr, hwk (by omega), fun i => ?_,
    hctr ▸ h.pout, h.frame⟩
  split
  · exact hrk i (by omega)
  · exact h.later i (by omega)

/-- Settles O15: in both end states (O14) the keys are a function of the master key and the index alone. -/
theorem variantsShareTheFirstRoundKeys : Obligations.VariantsShareTheFirstRoundKeys := by
  intro s₁ s₂ t₁ t₂ hp₁ hs₁ hp₂ hs₂ hv₁ hv₂ hkey hrun₁ hrun₂
  obtain ⟨u₁, hu₁, -, -, -, hwk₁, hrk₁, -⟩ := scheduleRunFillsTheKeyRegisters s₁ hp₁ hs₁
  obtain ⟨u₂, hu₂, -, -, -, hwk₂, hrk₂, -⟩ := scheduleRunFillsTheKeyRegisters s₂ hp₂ hs₂
  have h8 : s₁.rounds = 8 := rounds_of_var hv₁
  have h6 : s₂.rounds = 6 := rounds_of_var hv₂
  rw [h8] at hu₁ hrk₁
  rw [h6] at hu₂ hrk₂
  obtain rfl := Host.Outcome.next.inj (hrun₁.symm.trans hu₁)
  obtain rfl := Host.Outcome.next.inj (hrun₂.symm.trans hu₂)
  refine ⟨by rw [hwk₁, hwk₂, hkey], fun i hi => ?_⟩
  rw [hrk₁, hrk₂, if_pos (by omega), if_pos hi, hkey]

end Sys2Proof.Machine
end

section
/-! PROOF. The whitening and the two halves (spec/41_block_split_merge.md): WHA and WHB (R141, R142), and the pure forms
(R146). Both micro-operations are one whitening at an offset into `WK` followed by a redirection of the sequencer, and their
frame is composed of the frames of the two. -/

namespace Sys2Proof.Machine

/-! ### Whitening and redirecting -/

section
variable {off : Nat} (h : off + 16 ≤ 32) (s : State)

/-- The bytes of the Left Half after a whitening. -/
theorem getElem_whiten_lbuf (i : Nat) (hi : i < 8) : (whiten off h s).lbuf[i] = s.lbuf[i] ^^^ s.wk[off + i] := by
  simp [hi, State.left]

/-- The bytes of the Right Half after a whitening, whose material stands eight bytes further on. -/
theorem getElem_whiten_rbuf (i : Nat) (hi : i < 8) :
    (whiten off h s).rbuf[i] = s.rbuf[i] ^^^ s.wk[off + 8 + i] := by
  simp [hi, State.right]

theorem whiten_onlyChanges : OnlyChanges [.left, .right] s (whiten off h s) := by
  refine ⟨fun p hp => ?_, whiten_env ..⟩
  cases p with
  | left | right => simp at hp
  | _ => simp [Part.same]

end

theorem Redirects.onlyChanges {s t : State} (h : Redirects s t) : OnlyChanges [.rnd, .phase] s t := by
  refine ⟨fun p hp => ?_, h.env⟩
  cases p with
  | rnd | phase => simp at hp
  | _ => simp [Part.same, State.left, State.right, h.key, h.din, h.dout, h.ctr, h.wk, h.rk, h.lbuf, h.rbuf, h.cbuf, h.pout,
      h.cmdr, h.status, h.prfReq]

/-- A whitening and then a redirection write the halves, `RND` and `PHASE`; the padding of the buffers stays (R141). -/
theorem Redirects.onlyChanges_of_whiten {off : Nat} {hoff : off + 16 ≤ 32} {s t : State}
    (h : Redirects (whiten off hoff s) t) : OnlyChanges [.left, .right, .rnd, .phase] s t :=
  ((whiten_onlyChanges hoff s).mono (by simp)).trans (h.onlyChanges.mono (by simp))

/-! ### WHA and WHB -/

/-- Settles O17: the bytes of a whitening at offset 0, the successor by direction and variant, and the frame. -/
theorem whaWhitensWithTheFirstSixteen : Obligations.WhaWhitensWithTheFirstSixteen := by
  intro s
  have hnext := wha_next s
  refine ⟨wha s, exec_wha s, fun i hi => ⟨?left, ?right⟩, fun hd => ?encrypt, fun hd => ?decrypt,
    (wha_redirects s).onlyChanges_of_whiten⟩
  case left => simpa only [wha_lbuf, Nat.zero_add] using getElem_whiten_lbuf (off := 0) (by decide) s i hi
  case right => simpa only [wha_rbuf, Nat.zero_add] using getElem_whiten_rbuf (off := 0) (by decide) s i hi
  case encrypt =>
    rw [hd] at hnext
    cases hv : s.var <;> rw [hv] at hnext <;> exact (Prod.mk.inj hnext).symm
  case decrypt =>
    rw [hd] at hnext
    exact (Prod.mk.inj hnext).symm

/-- Settles O18: the bytes of a whitening at offset 16, the successor by direction and variant, and the frame. -/
theorem whbWhitensWithTheLastSixteen : Obligations.WhbWhitensWithTheLastSixteen := by
  intro s
  have hnext := whb_next s
  refine ⟨whb s, exec_whb s, fun i hi => ⟨?left, ?right⟩, fun hd => ?encrypt, fun hd hv => ?feistel,
    fun hd hv => ?laiMassey, (whb_redirects s).onlyChanges_of_whiten⟩
  case left => simpa only [whb_lbuf] using getElem_whiten_lbuf (off := 16) (by decide) s i hi
  case right => simpa only [whb_rbuf] using getElem_whiten_rbuf (off := 16) (by decide) s i hi
  case encrypt =>
    rw [hd] at hnext
    exact (Prod.mk.inj hnext).symm
  case feistel | laiMassey =>
    rw [hd, hv] at hnext
    exact (Prod.mk.inj hnext).symm

/-! ### The pure forms -/

theorem mergeHalves_splitBlock (b : Bytes 16) : mergeHalves (splitBlock b) = b := cat_slice (m := 8) (n := 8) b

theorem splitBlock_mergeHalves (h : Bytes 8 × Bytes 8) : splitBlock (mergeHalves h) = h :=
  Prod.ext (slice_cat_left h.1 h.2 (by decide)) (slice_cat_right h.1 h.2 (by decide))

/-- Because `x ^ w ^ w = x` (R146). -/
theorem whitenA_involutive (w : Bytes 32) : Function.Involutive (whitenA w) :=
  fun _ => Prod.ext (xorBytes_cancel ..) (xorBytes_cancel ..)

/-- Because `x ^ w ^ w = x` (R146). -/
theorem whitenB_involutive (w : Bytes 32) : Function.Involutive (whitenB w) :=
  fun _ => Prod.ext (xorBytes_cancel ..) (xorBytes_cancel ..)

/-- Settles O20: the bytes of the four forms from those of slices, concatenations and exclusive-or, and the four laws. -/
theorem splitMergeAndWhiteningInvert : Obligations.SplitMergeAndWhiteningInvert := by
  refine ⟨fun b i hi => ?split, fun h i hi => ?merge, fun w h i hi => ?whiten, mergeHalves_splitBlock,
    splitBlock_mergeHalves, whitenA_involutive, whitenB_involutive⟩
  case split => simp [splitBlock]
  case merge => exact ⟨getElem_cat_left h.1 h.2 i hi, getElem_cat_right h.1 h.2 i hi⟩
  case whiten => simp [whitenA, whitenB]

end Sys2Proof.Machine
end

section
/-! PROOF. The Lai-Massey rounds (spec/43_lai_massey.md): the orthomorphism `sigma` and its inverse (R180 to R182), what LMMIX
keeps (R190), and the law of the two loops (R189). -/

namespace Sys2Proof.Machine

/-! ### Exclusive-or of four -/

theorem xorBytes_xorBytes_xorBytes_comm {n : Nat} (a b c d : Bytes n) :
    xorBytes (xorBytes a b) (xorBytes c d) = xorBytes (xorBytes a c) (xorBytes b d) := by
  rw [xorBytes_assoc, ← xorBytes_assoc b, xorBytes_comm b c, xorBytes_assoc c, ← xorBytes_assoc]

/-- The same mask on both sides leaves the sum as it was: the reason behind R189 and R190. -/
@[simp] theorem xorBytes_xorBytes_same_mask {n : Nat} (a b m : Bytes n) :
    xorBytes (xorBytes a m) (xorBytes b m) = xorBytes a b := by
  rw [xorBytes_xorBytes_xorBytes_comm, xorBytes_self, xorBytes_zero]

/-- A quarter comes back from the sum it stands second in. -/
@[simp] theorem xorBytes_cancel_outer {n : Nat} (a b : Bytes n) : xorBytes b (xorBytes a b) = a := by
  rw [xorBytes_comm, xorBytes_cancel]

/-! ### sigma and sigma_inv -/

/-- Where `sigma` writes the second quarter (R180). -/
theorem getElem_sigma_low (x : Bytes 8) (j : Nat) (hj : j < 4) : (sigma x)[j] = x[j + 4] := by
  simp [sigma, hj, Nat.add_comm]

/-- Where `sigma` writes the sum of the quarters (R180). -/
theorem getElem_sigma_high (x : Bytes 8) (j : Nat) (hj : j < 4) : (sigma x)[j + 4] = x[j] ^^^ x[j + 4] := by
  simp [sigma, Nat.add_comm]

/-- Where `sigma_inv` writes the sum of the quarters (R181). -/
theorem getElem_sigmaInv_low (x : Bytes 8) (j : Nat) (hj : j < 4) : (sigmaInv x)[j] = x[j] ^^^ x[j + 4] := by
  simp [sigmaInv, hj, Nat.add_comm]

/-- Where `sigma_inv` writes the first quarter (R181). -/
theorem getElem_sigmaInv_high (x : Bytes 8) (j : Nat) (hj : j < 4) : (sigmaInv x)[j + 4] = x[j] := by
  simp [sigmaInv]

theorem sigma_xorBytes (x y : Bytes 8) : sigma (xorBytes x y) = xorBytes (sigma x) (sigma y) := by
  apply half_ext
  · simp
  · simp [xorBytes_xorBytes_xorBytes_comm]

theorem sigma_zeroBytes : sigma (zeroBytes 8) = zeroBytes 8 := by
  apply half_ext <;> simp

/-- On quarters: `(a, b)`, then `(b, a ^ b)`, then `(a ^ b, b ^ (a ^ b)) = (a ^ b, a)` (R182). -/
theorem sigma_sigma (x : Bytes 8) : sigma (sigma x) = sigmaInv x := by
  apply half_ext <;> simp

theorem sigmaInv_sigma : Function.LeftInverse sigmaInv sigma := by
  intro x
  apply half_ext <;> simp

theorem sigma_sigmaInv : Function.RightInverse sigmaInv sigma := by
  intro x
  apply half_ext
  · simp
  · rw [slice_sigma_high, slice_sigmaInv_low, slice_sigmaInv_high, xorBytes_comm (slice x 0 4), xorBytes_cancel]

theorem sigma_bijective : Function.Bijective sigma := ⟨sigmaInv_sigma.injective, sigma_sigmaInv.surjective⟩

theorem sigmaInv_bijective : Function.Bijective sigmaInv := ⟨sigma_sigmaInv.injective, sigmaInv_sigma.surjective⟩

/-- On quarters: `(b, a ^ b) ^ (a, b) = (b ^ a, a)`, which makes `sigma` an orthomorphism (R182). -/
theorem xorBytes_sigma_self (x : Bytes 8) : xorBytes (sigma x) x = sigmaInv x := by
  apply half_ext
  · rw [slice_xorBytes, slice_sigma_low, slice_sigmaInv_low, xorBytes_comm]
  · simp

/-- Settles O24: the two quarters byte by byte, and the two laws. -/
theorem sigmaSwapsAndMixesTheQuarters : Obligations.SigmaSwapsAndMixesTheQuarters :=
  ⟨fun x j hj => ⟨getElem_sigma_low x j hj, getElem_sigma_high x j hj⟩, sigma_xorBytes, sigma_zeroBytes⟩

/-- Settles O25: the two quarters byte by byte, and the inverse on both sides. -/
theorem sigmaInvUndoesSigma : Obligations.SigmaInvUndoesSigma :=
  ⟨fun x j hj => ⟨getElem_sigmaInv_low x j hj, getElem_sigmaInv_high x j hj⟩, sigmaInv_sigma, sigma_sigmaInv⟩

/-- Settles O26: `sigma_sigma` makes the order three, and `xorBytes_sigma_self` reduces the orthomorphism to the bijection
`sigma_inv`. -/
theorem sigmaIsAnOrthomorphism : Obligations.SigmaIsAnOrthomorphism := by
  refine ⟨sigma_sigma, fun x => ?order, sigma_bijective, xorBytes_sigma_self, ?orthomorphism⟩
  case order => rw [sigma_sigma, sigmaInv_sigma]
  case orthomorphism =>
    rw [funext xorBytes_sigma_self]
    exact sigmaInv_bijective

/-! ### LMMIX -/

theorem lmmix_left (prf : Prf) (s : State) :
    (lmmix prf s).left = xorBytes s.left (trunc8 (prf (s.roundKey s.rnd.toNat) (combined s))) := by
  rw [State.left, lmmix_lbuf, lmmixData_lbuf, halfOf_writeHalf]

theorem lmmix_right (prf : Prf) (s : State) :
    (lmmix prf s).right = xorBytes s.right (trunc8 (prf (s.roundKey s.rnd.toNat) (combined s))) := by
  rw [State.right, lmmix_rbuf, lmmixData_rbuf, halfOf_writeHalf]

/-- Settles O31: LMMIX adds one mask to both halves. -/
theorem lmmixKeepsCombined : Obligations.LmmixKeepsCombined := by
  intro s
  refine ⟨lmmix Config.prf s, exec_lmmix s, ?_⟩
  rw [lmmix_left, lmmix_right, xorBytes_xorBytes_same_mask]

/-! ### A loop and its inverse -/

/-- A loop is undone by the loop that runs the inverse bodies in the opposite order. -/
theorem foldl_reverse_leftInverse {α β : Type} {f g : β → α → β}
    (h : ∀ i, Function.LeftInverse (fun b => g b i) (fun b => f b i)) (l : List α) :
    Function.LeftInverse (fun b => l.reverse.foldl g b) (fun b => l.foldl f b) := by
  intro b
  induction l generalizing b with
  | nil => rfl
  | cons i l ih =>
    calc (i :: l).reverse.foldl g ((i :: l).foldl f b)
        = g (l.reverse.foldl g (l.foldl f (f b i))) i := by
          simp only [List.reverse_cons, List.foldl_append, List.foldl_cons, List.foldl_nil]
      _ = g (f b i) i := congrArg (g · i) (ih (f b i))
      _ = b := h i b

section
variable (prf : Prf) (rk : Nat → Bytes 32)

/-- The second mix reads the same `L ^ R` as the first, so it adds the same mask again. -/
theorem lmMixHalves_involutive (i : Nat) : Function.Involutive (lmMixHalves prf rk i) := by
  intro h
  simp [lmMixHalves]

theorem lmDecRound_lmEncRound (n i : Nat) :
    Function.LeftInverse (fun h => lmDecRound prf rk n h i) (fun h => lmEncRound prf rk n h i) := by
  intro h
  by_cases hi : i ≠ n - 1
  · simp only [lmDecRound, lmEncRound, if_pos hi, sigmaInv_sigma _, Prod.mk.eta, lmMixHalves_involutive prf rk i h]
  · simp only [lmDecRound, lmEncRound, if_neg hi, lmMixHalves_involutive prf rk i h]

theorem lmEncRound_lmDecRound (n i : Nat) :
    Function.LeftInverse (fun h => lmEncRound prf rk n h i) (fun h => lmDecRound prf rk n h i) := by
  intro h
  by_cases hi : i ≠ n - 1
  · simp only [lmDecRound, lmEncRound, if_pos hi, lmMixHalves_involutive prf rk i _, sigma_sigmaInv _, Prod.mk.eta]
  · simp only [lmDecRound, lmEncRound, if_neg hi, lmMixHalves_involutive prf rk i h]

theorem lmDec_lmEnc (n : Nat) : Function.LeftInverse (lmDec prf rk n) (lmEnc prf rk n) :=
  foldl_reverse_leftInverse (lmDecRound_lmEncRound prf rk n) (List.range n)

/-- The decrypt loop goes down the indices, so the encrypt loop is the one in the opposite order. -/
theorem lmEnc_lmDec (n : Nat) : Function.LeftInverse (lmEnc prf rk n) (lmDec prf rk n) := by
  intro h
  have hundo := foldl_reverse_leftInverse (lmEncRound_lmDecRound prf rk n) (List.range n).reverse h
  rwa [List.reverse_reverse] at hundo

end

/-- Settles O30: each body undoes the other, and the loops run them in opposite orders. -/
theorem laiMasseyLoopsInvert : Obligations.LaiMasseyLoopsInvert :=
  fun prf rk n h => ⟨lmDec_lmEnc prf rk n h, lmEnc_lmDec prf rk n h⟩

end Sys2Proof.Machine
end

section
/-! PROOF. The Feistel loops (spec/42_feistel.md, R163 to R165): each undoes the other. -/

namespace Sys2Proof.Machine

section
variable (prf : Prf) (rk : Nat → Bytes 32)

/-- The mask depends on the Right Half alone, which the step keeps, so the second step adds the same mask again. -/
theorem feistelLeft_involutive (i : Nat) : Function.Involutive (feistelLeft prf rk i) :=
  fun _ => Prod.ext (xorBytes_cancel ..) rfl

/-- The mask depends on the Left Half alone, which the step keeps. -/
theorem feistelRight_involutive (i : Nat) : Function.Involutive (feistelRight prf rk i) :=
  fun _ => Prod.ext rfl (xorBytes_cancel ..)

/-- A pair of rounds is undone by its two steps in the opposite order (R164). -/
theorem feistelDecPair_feistelEncPair (i : Nat) :
    Function.LeftInverse (fun h => feistelDecPair prf rk h i) (fun h => feistelEncPair prf rk h i) :=
  (feistelRight_involutive prf rk (i + 1)).leftInverse.comp (feistelLeft_involutive prf rk i).leftInverse

theorem feistelEncPair_feistelDecPair (i : Nat) :
    Function.LeftInverse (fun h => feistelEncPair prf rk h i) (fun h => feistelDecPair prf rk h i) :=
  (feistelLeft_involutive prf rk i).leftInverse.comp (feistelRight_involutive prf rk (i + 1)).leftInverse

theorem feistelDec_feistelEnc (n : Nat) : Function.LeftInverse (feistelDec prf rk n) (feistelEnc prf rk n) :=
  foldl_reverse_leftInverse (feistelDecPair_feistelEncPair prf rk) (pairIndices n)

/-- The decrypt loop goes down the pairs, so the encrypt loop is the one in the opposite order. -/
theorem feistelEnc_feistelDec (n : Nat) : Function.LeftInverse (feistelEnc prf rk n) (feistelDec prf rk n) := by
  intro h
  have hundo := foldl_reverse_leftInverse (feistelEncPair_feistelDecPair prf rk) (pairIndices n).reverse h
  rwa [List.reverse_reverse] at hundo

end

end Sys2Proof.Machine
end

section
/-! PROOF. The four commands (spec/44_commands.md): what a START does (R200, R212), the control transfers (R205), and the
round trip of the pure functions (R210). -/

namespace Sys2Proof

/-! ### A word and its fields -/

theorem decide_dirOf (w : BitVec 32) : decide (dirOf w = .decrypt) = w.getLsbD 0 := by
  unfold dirOf
  cases w.getLsbD 0 <;> rfl

theorem decide_varOf (w : BitVec 32) : decide (varOf w = .laiMassey) = w.getLsbD 1 := by
  unfold varOf
  cases w.getLsbD 1 <;> rfl

/-- A word that spells a command is made of its own fields: bits 7 to 2 are the only ones they do not hold (R90, R97). -/
theorem commandWord_fields {w : BitVec 32} (h : rsv0Of w = 0#6) :
    commandWord (dirOf w) (varOf w) (klenOf w) (ilenOf w) (olenOf w) = w := by
  refine BitVec.eq_of_getLsbD_eq fun j hj => ?_
  simp only [commandWord_getLsbD, decide_dirOf, decide_varOf, klenOf, ilenOf, olenOf, BitVec.ofNat_toNat,
    BitVec.setWidth_eq, BitVec.getLsbD_extractLsb']
  split
  case isTrue h1 => rw [Nat.lt_one_iff.mp h1]
  split
  case isTrue h1 h2 => rw [show j = 1 by omega]
  split
  case isTrue h2 h8 =>
    have hbit : (rsv0Of w).getLsbD (j - 2) = false := by rw [h]; exact BitVec.getLsbD_zero
    rw [rsv0Of, BitVec.getLsbD_extractLsb', show 2 + (j - 2) = j by omega, decide_eq_true (by omega)] at hbit
    exact hbit.symm
  split
  case isTrue h8 h16 => rw [decide_eq_true (by omega), Bool.true_and, show 8 + (j - 8) = j by omega]
  split
  case isTrue h16 h24 => rw [decide_eq_true (by omega), Bool.true_and, show 16 + (j - 16) = j by omega]
  case isFalse h24 => rw [decide_eq_true (by omega), Bool.true_and, show 24 + (j - 24) = j by omega]

/-- The length fields as counts and as bits (R94). -/
theorem lengths_iff_fields (w : BitVec 32) :
    (klenOf w = 32 ∧ ilenOf w = 16 ∧ olenOf w = 16) ↔
      w.extractLsb' 8 8 = 32#8 ∧ w.extractLsb' 16 8 = 16#8 ∧ w.extractLsb' 24 8 = 16#8 := by
  simp only [klenOf, ilenOf, olenOf, BitVec.toNat_eq, BitVec.toNat_ofNat]

namespace Machine

/-! ### START -/

section
variable {d : Direction} {v : Variant} {k i o : Nat} {w : BitVec 32} {s : State}

/-- R77, R280. -/
theorem startCommand_of_busy (h : s.phase ≠ .idle) : startCommand d v k i o s = s :=
  if_neg (mt (ready_iff s).mp h)

/-- R241. -/
theorem startCommand_of_lengths_wrong (h : s.phase = .idle) (hl : ¬(k = 32 ∧ i = 16 ∧ o = 16)) :
    startCommand d v k i o s = takeException .sizeMismatch (commandWord d v k i o) s :=
  (if_pos ((ready_iff s).mpr h)).trans (if_neg (mt (lengthsRight_iff k i o).mp hl))

/-- R200. -/
theorem startCommand_of_lengths_right (h : s.phase = .idle) (hl : k = 32 ∧ i = 16 ∧ o = 16) :
    startCommand d v k i o s = acceptStart (commandWord d v k i o) s :=
  (if_pos ((ready_iff s).mpr h)).trans (if_pos ((lengthsRight_iff k i o).mpr hl))

/-- R280. -/
theorem startIllegal_of_busy (h : s.phase ≠ .idle) : startIllegal w s = s := if_neg (mt (ready_iff s).mp h)

/-- R242. -/
theorem startIllegal_of_idle (h : s.phase = .idle) : startIllegal w s = takeException .illegalCommand w s :=
  if_pos ((ready_iff s).mpr h)

end

/-- A START of any word: busy, unspelt, of wrong lengths, or accepted, asked in this order (R200, R243). -/
def startOutcome (w : BitVec 32) (s : State) : State :=
  if s.phase ≠ .idle then s
  else if rsv0Of w ≠ 0#6 then takeException .illegalCommand w s
  else if ¬(klenOf w = 32 ∧ ilenOf w = 16 ∧ olenOf w = 16) then takeException .sizeMismatch w s
  else acceptStart w s

/-- Decoding the word first and asking whether the core is idle afterwards comes to the order of R200. -/
theorem afterEvent_start (w : BitVec 32) (k : Bytes 32) (d : Bytes 16) (rest : List Event) (s : State) :
    afterEvent (.start w k d) rest s = startOutcome w ((s.withScript rest).drivePorts k d) := by
  simp only [afterEvent, startOutcome]
  generalize (s.withScript rest).drivePorts k d = u
  by_cases hi : u.phase = .idle
  · rw [if_neg (not_not_intro hi)]
    split
    case isTrue => exact startIllegal_of_idle hi
    case isFalse hr =>
      have hw := commandWord_fields (not_not.mp hr)
      split
      case isTrue hl => rw [startCommand_of_lengths_wrong hi hl, hw]
      case isFalse hl => rw [startCommand_of_lengths_right hi (not_not.mp hl), hw]
  · rw [if_pos hi, startIllegal_of_busy hi, startCommand_of_busy hi, ite_self]

/-- Settles O6: the outcome of the START event, its conditions on the word read as bits. -/
theorem startValidatesThenLatches : Obligations.StartValidatesThenLatches := by
  intro s w k d rest hs
  rw [step_event hs, afterEvent_start]
  simp only [startOutcome, lengths_iff_fields, not_and_or]
  rfl

/-- Settles O9: `SizeMismatch` is taken, and an exception writes `CMDR` and `STATUS` only. -/
theorem wrongLengthsRaiseSizeMismatch : Obligations.WrongLengthsRaiseSizeMismatch := by
  intro s d v k i o hidle _ hlengths
  refine ⟨commandWord d v k i o, encode_commandOf d v k i o, ?_⟩
  rw [exec_commandOf, startCommand_of_lengths_wrong hidle hlengths]
  rfl

/-! ### The sequencer -/

/-- A well-spelt word of the right lengths is accepted by an idle core (R200). -/
theorem startOutcome_commandWord (d : Direction) (v : Variant) {s : State} (h : s.phase = .idle) :
    startOutcome (commandWord d v 32 16 16) s = acceptStart (commandWord d v 32 16 16) s := by
  have hl := (lengths_iff_fields (commandWord d v 32 16 16)).mpr
    ⟨klen_commandWord .., ilen_commandWord .., olen_commandWord ..⟩
  rw [startOutcome, if_neg (not_not_intro h), if_neg (not_not_intro (rsv0Of_commandWord ..)),
    if_neg (not_not_intro hl)]

/-- Settles O33: on the paths a busy core's step is its micro-operation, which follows the table (`microStep_control`), and
an accepted START goes to KSINIT. -/
theorem sequencerFollowsTheTable : Obligations.SequencerFollowsTheTable := by
  refine ⟨fun s t hpath _ hs hstep => ?micro, fun s d v k b rest hidle hs => ?start⟩
  case micro =>
    obtain rfl := Host.Outcome.next.inj ((step_alone hs).symm.trans hstep)
    exact microStep_control hpath
  case start =>
    refine ⟨_, step_event hs, ?_⟩
    rw [afterEvent_start, startOutcome_commandWord d v (s := (s.withScript rest).drivePorts k b) hidle]
    rfl

/-! ### The round trip -/

section
variable (prf : Prf) (v : Variant) (rk : Nat → Bytes 32)

/-- The rounds of a decryption undo those of an encryption, in both variants (R165, R189). -/
theorem cipherRounds_decrypt_encrypt :
    Function.LeftInverse (cipherRounds prf .decrypt v rk) (cipherRounds prf .encrypt v rk) := by
  cases v with
  | feistel => exact feistelDec_feistelEnc prf rk Config.nrF
  | laiMassey => exact lmDec_lmEnc prf rk Config.nrLM

theorem cipherRounds_encrypt_decrypt :
    Function.LeftInverse (cipherRounds prf .encrypt v rk) (cipherRounds prf .decrypt v rk) := by
  cases v with
  | feistel => exact feistelEnc_feistelDec prf rk Config.nrF
  | laiMassey => exact lmEnc_lmDec prf rk Config.nrLM

end

/-- Settles O37: from the inside out, each stage of one direction meets its inverse in the other: the split and the merge,
the two whitenings, the rounds. -/
theorem decryptUndoesEncrypt : Obligations.DecryptUndoesEncrypt := by
  intro prf v k b
  constructor
  · simp only [cipher, splitBlock_mergeHalves, whitenB_involutive _ _, cipherRounds_decrypt_encrypt prf v _ _,
      whitenA_involutive _ _, mergeHalves_splitBlock]
  · simp only [cipher, splitBlock_mergeHalves, whitenA_involutive _ _, cipherRounds_encrypt_decrypt prf v _ _,
      whitenB_involutive _ _, mergeHalves_splitBlock]

end Machine
end Sys2Proof
end

section
/-! PROOF. The exceptions of START (spec/60_exceptions.md): what taking one writes and shows on the level outputs, and a word
that spells no command. -/

namespace Sys2Proof.Machine

/-! ### Taking an exception -/

section
variable (e : CoreException) (w : BitVec 32) (s : State)

/-- R244: the record of the word and of the code, and nothing else. -/
theorem takeException_onlyChanges : OnlyChanges [.cmdr, .status] s (takeException e w s) := by
  refine ⟨fun p hp => ?_, rfl⟩
  cases p with
  | cmdr | status => simp at hp
  | _ => simp [Part.same, State.left, State.right]

/-- R250: `err` rises at a refused START, whatever its code. -/
@[simp] theorem errOut_takeException : errOut (takeException e w s) = true := by
  rw [errOut, takeException_status]
  cases e <;> decide

/-- R250: `done` falls at a refused START, whatever its code. -/
@[simp] theorem doneOut_takeException : doneOut (takeException e w s) = false := by
  rw [doneOut, takeException_status]
  cases e <;> decide

end

/-! ### A START of a word that spells no command -/

/-- The host's wires and its script are no part of the core. -/
theorem Part.same_drivePorts_withScript (p : Part) (k : Bytes 32) (d : Bytes 16) (rest : List Event) (s : State) :
    p.same s ((s.withScript rest).drivePorts k d) := by
  cases p <;> rfl

/-- R242, R243: the lengths are not looked at. -/
theorem startOutcome_of_rsv0 {w : BitVec 32} {s : State} (hidle : s.phase = .idle) (hrsv : rsv0Of w ≠ 0#6) :
    startOutcome w s = takeException .illegalCommand w s := by
  rw [startOutcome, if_neg (not_not_intro hidle), if_pos hrsv]

/-- R245: the exception is taken in the START step itself. -/
theorem step_start_of_rsv0 {s : State} {w : BitVec 32} {k : Bytes 32} {d : Bytes 16} {rest : List Event}
    (hs : s.env.script = .start w k d :: rest) (hidle : s.phase = .idle) (hrsv : rsv0Of w ≠ 0#6) :
    step s = .next (takeException .illegalCommand w ((s.withScript rest).drivePorts k d)) := by
  rw [step_event hs, afterEvent_start, startOutcome_of_rsv0 (s := (s.withScript rest).drivePorts k d) hidle hrsv]

/-- Settles O10: RSV0 is asked before the lengths, so IllegalCommand is taken, and taking it writes `CMDR` and `STATUS`
only. -/
theorem illegalCommandWinsOverSizeMismatch : Obligations.IllegalCommandWinsOverSizeMismatch := by
  intro s w k d rest hs hidle hrsv
  refine ⟨_, step_start_of_rsv0 hs hidle hrsv, rfl, rfl, errOut_takeException .., doneOut_takeException .., hidle, ?frame⟩
  case frame =>
    intro p hcmdr hstatus
    obtain ⟨hframe, -⟩ := takeException_onlyChanges .illegalCommand w ((s.withScript rest).drivePorts k d)
    exact Part.same_trans (p.same_drivePorts_withScript k d rest s) (hframe p (by simp [hcmdr, hstatus]))

end Sys2Proof.Machine
end

section
/-! PROOF. Reset and the hazards of the host (spec/70_reset_and_hazards.md): a reset in any state (R270 to R272), a response
to no request (R272), and a START presented while a command runs (R280). Each event is given its one next state. -/

namespace Sys2Proof.Machine

section
variable {s : State} {rest : List Event}

/-! ### Reset -/

/-- R270: no phase holds a reset back, and no register of `s` is seen in what it leaves. -/
theorem step_reset (hs : s.env.script = .reset :: rest) : step s = .next (resetCore (s.withScript rest)) :=
  step_event hs

/-! ### A response to no request -/

/-- R272, R73: the response is over and done with; the micro-operation in `PHASE` does not run. -/
theorem step_prfAnswer_of_no_request (hs : s.env.script = .prfAnswer :: rest) (hreq : s.prfReq = none) :
    step s = .next (s.withScript rest) := by
  have ignored : afterEvent .prfAnswer rest s = s.withScript rest := if_neg (by simp [hreq])
  rw [step_event hs, ignored]

/-! ### A START while busy -/

/-- R280: neither the reserved bits nor the lengths of the word are looked at. -/
theorem startOutcome_of_busy (w : BitVec 32) (hbusy : s.phase ≠ .idle) : startOutcome w s = s := if_pos hbusy

/-- R280: the host has driven its ports, and the core has sampled none of them. -/
theorem step_start_of_busy {w : BitVec 32} {k : Bytes 32} {d : Bytes 16} (hs : s.env.script = .start w k d :: rest)
    (hbusy : s.phase ≠ .idle) : step s = .next ((s.withScript rest).drivePorts k d) := by
  rw [step_event hs, afterEvent_start, startOutcome_of_busy (s := (s.withScript rest).drivePorts k d) w hbusy]

end

/-! ### The three statements -/

/-- Settles O7: what a START leaves of a busy core is the core itself; the script and the ports are the environment's. -/
theorem startWhileBusyLeavesNoTrace : Obligations.StartWhileBusyLeavesNoTrace := by
  intro s t w k d rest hs hbusy hstep
  obtain rfl : (s.withScript rest).drivePorts k d = t :=
    Host.Outcome.next.inj ((step_start_of_busy hs hbusy).symm.trans hstep)
  rfl

/-- Settles O43: `resetCore` takes nothing over but the environment. -/
theorem resetForgetsTheState : Obligations.ResetForgetsTheState := fun _ _ => step_reset

/-- Settles O57: the reset values of `PHASE` and of the PRF port; and an ignored response moves only the script on. -/
theorem strayPrfResponseIsIgnored : Obligations.StrayPrfResponseIsIgnored := by
  refine ⟨fun s t rest hs hstep => ?dropped, fun s t rest hs hreq hstep => ?ignored⟩
  case dropped =>
    obtain rfl : resetCore (s.withScript rest) = t := Host.Outcome.next.inj ((step_reset hs).symm.trans hstep)
    exact ⟨resetCore_phase _, resetCore_prfReq _⟩
  case ignored =>
    obtain rfl : s.withScript rest = t :=
      Host.Outcome.next.inj ((step_prfAnswer_of_no_request hs hreq).symm.trans hstep)
    rfl

end Sys2Proof.Machine
end

section
/-! PROOF. The decoder and the encoder (spec/30_encoding.md): each undoes the other on both formats (R90 to R100). -/

namespace Sys2Proof

/-! ### Decoding what was encoded -/

section
variable {k i o : Nat}

theorem lengthsFit_iff : lengthsFit k i o = true ↔ k < 256 ∧ i < 256 ∧ o < 256 := by
  simp [lengthsFit, and_assoc]

/-- A length field is 8 bits wide (R94). -/
theorem klenOf_commandWord (d : Direction) (v : Variant) (hk : k < 256) : klenOf (commandWord d v k i o) = k := by
  rw [klenOf, klen_commandWord, BitVec.toNat_ofNat, Nat.mod_eq_of_lt hk]

theorem ilenOf_commandWord (d : Direction) (v : Variant) (hi : i < 256) : ilenOf (commandWord d v k i o) = i := by
  rw [ilenOf, ilen_commandWord, BitVec.toNat_ofNat, Nat.mod_eq_of_lt hi]

theorem olenOf_commandWord (d : Direction) (v : Variant) (ho : o < 256) : olenOf (commandWord d v k i o) = o := by
  rw [olenOf, olen_commandWord, BitVec.toNat_ofNat, Nat.mod_eq_of_lt ho]

/-- What a word whose RSV0 is zero spells (R96). -/
theorem decodeCommand_of_rsv0 {w : BitVec 32} (h : rsv0Of w = 0#6) :
    decodeCommand w = .ok (commandOf (dirOf w) (varOf w) (klenOf w) (ilenOf w) (olenOf w)) :=
  if_neg (not_not_intro h)

/-- R97. -/
theorem decodeCommand_of_rsv0_ne {w : BitVec 32} (h : rsv0Of w ≠ 0#6) :
    decodeCommand w = .error (.illegalCommand w) :=
  if_pos h

/-- The word of a command decodes to it, the four commands at once. -/
theorem decodeCommand_commandWord (d : Direction) (v : Variant) (h : lengthsFit k i o = true) :
    decodeCommand (commandWord d v k i o) = .ok (commandOf d v k i o) := by
  obtain ⟨hk, hi, ho⟩ := lengthsFit_iff.mp h
  rw [decodeCommand_of_rsv0 (rsv0Of_commandWord ..), dirOf_commandWord, varOf_commandWord, klenOf_commandWord d v hk,
    ilenOf_commandWord d v hi, olenOf_commandWord d v ho]

end

/-- Settles O2: the four commands by their fields, the micro-operations by their codes. -/
theorem decodeOfEncodeIsTheInstruction : Obligations.DecodeOfEncodeIsTheInstruction := by
  intro i hwf
  cases i with
  | encF => exact decodeCommand_commandWord .encrypt .feistel hwf
  | decF => exact decodeCommand_commandWord .decrypt .feistel hwf
  | encLM => exact decodeCommand_commandWord .encrypt .laiMassey hwf
  | decLM => exact decodeCommand_commandWord .decrypt .laiMassey hwf
  | _ => rfl

/-! ### Encoding what was decoded -/

/-- R99: a code names one micro-operation, whose own code it is. -/
theorem encode_of_decodePhase {c : BitVec 4} {i : Instr} (h : decodePhase c = .ok i) :
    i.wellFormed = true ∧ encode i = .phase c := by
  unfold decodePhase at h
  split at h <;> cases h
  all_goals
    rename_i hcode
    exact ⟨rfl, congrArg Code.phase (BitVec.eq_of_toNat_eq hcode.symm)⟩

/-- R90: the fields of a word that spells a command hold all its bits but RSV0, which is zero. -/
theorem encode_of_decodeCommand {w : BitVec 32} {i : Instr} (h : decodeCommand w = .ok i) :
    i.wellFormed = true ∧ encode i = .command w := by
  by_cases hrsv : rsv0Of w = 0#6
  · obtain rfl := Except.ok.inj ((decodeCommand_of_rsv0 hrsv).symm.trans h)
    exact ⟨(commandOf_wellFormed ..).trans (lengthsFit_fields w), by rw [encode_commandOf, commandWord_fields hrsv]⟩
  · exact nomatch (decodeCommand_of_rsv0_ne hrsv).symm.trans h

/-- Settles O3, format by format. -/
theorem decodedCodeIsItsEncoding : Obligations.DecodedCodeIsItsEncoding := by
  intro c i h
  cases c with
  | command w => exact encode_of_decodeCommand h
  | phase c => exact encode_of_decodePhase h

/-! ### The verdicts -/

/-- Settles O4: the two branches of the decoder, its fields being bits of the word. -/
theorem commandWordVerdicts : Obligations.CommandWordVerdicts :=
  fun _ => ⟨decodeCommand_of_rsv0_ne, decodeCommand_of_rsv0⟩

/-- The four words of R95. -/
theorem decodeCommand_valid (d : Direction) (v : Variant) :
    decodeCommand (commandWord d v 32 16 16) = .ok (commandOf d v 32 16 16) :=
  decodeCommand_commandWord d v rfl

/-- Settles O5: the words of commands are encodings, with right lengths or a wrong one; the rest is the evaluation of one
word and five codes. -/
theorem wordsOfTheTableDecode : Obligations.WordsOfTheTableDecode :=
  ⟨decodeCommand_valid .encrypt .feistel, decodeCommand_valid .decrypt .feistel, decodeCommand_valid .encrypt .laiMassey,
    decodeCommand_valid .decrypt .laiMassey,
    decodeCommand_commandWord (k := 32) (i := 15) (o := 16) .encrypt .feistel rfl,
    decodeCommand_of_rsv0_ne (by decide), rfl, rfl, rfl, rfl, rfl⟩

end Sys2Proof
end

section
/-! PROOF. The result and the frame of each instruction (spec/10_state.md R22, spec/20_memory.md R66). A micro-operation whose
successor depends on DIR, VAR or RND is its data part followed by a redirection of the sequencer, and so is its frame. -/

namespace Sys2Proof.Machine

/-! ### Frames -/

/-- The data part writes its own parts, the redirection `RND` and `PHASE`. -/
theorem Redirects.onlyChanges_of_data {data parts : List Part} {s u t : State} (h : Redirects u t)
    (hdata : OnlyChanges data s u) (hsub : data ++ [.rnd, .phase] ⊆ parts) : OnlyChanges parts s t :=
  (hdata.mono fun _ hp => hsub (List.mem_append_left _ hp)).trans
    (h.onlyChanges.mono fun _ hp => hsub (List.mem_append_right _ hp))

theorem OnlyChanges.refl (parts : List Part) (s : State) : OnlyChanges parts s s :=
  ⟨fun p _ => by cases p <;> rfl, rfl⟩

section
variable (prf : Prf) (s : State)

theorem splitData_onlyChanges : OnlyChanges [.left, .leftPad, .right, .rightPad] s (splitData s) := by
  refine ⟨fun p hp => ?_, splitData_env s⟩
  cases p with
  | left | leftPad | right | rightPad => simp at hp
  | _ => simp [Part.same]

theorem flData_onlyChanges : OnlyChanges [.pout, .left, .prfPort] s (flData prf s) := by
  refine ⟨fun p hp => ?_, flData_env prf s⟩
  cases p with
  | pout | left | prfPort => simp at hp
  | _ => simp [Part.same, State.right]

theorem frData_onlyChanges : OnlyChanges [.pout, .right, .prfPort] s (frData prf s) := by
  refine ⟨fun p hp => ?_, frData_env prf s⟩
  cases p with
  | pout | right | prfPort => simp at hp
  | _ => simp [Part.same, State.left]

theorem lmmixData_onlyChanges : OnlyChanges [.cbuf, .pout, .left, .right, .prfPort] s (lmmixData prf s) := by
  refine ⟨fun p hp => ?_, lmmixData_env prf s⟩
  cases p with
  | cbuf | pout | left | right | prfPort => simp at hp
  | _ => simp [Part.same]

theorem split_onlyChanges : OnlyChanges (writesOf .split s) s (split s) :=
  (split_redirects s).onlyChanges_of_data (splitData_onlyChanges s) (by simp [writesOf])

theorem wha_onlyChanges : OnlyChanges (writesOf .wha s) s (wha s) := (wha_redirects s).onlyChanges_of_whiten

theorem whb_onlyChanges : OnlyChanges (writesOf .whb s) s (whb s) := (whb_redirects s).onlyChanges_of_whiten

theorem fl_onlyChanges : OnlyChanges (writesOf .fl s) s (fl prf s) :=
  (fl_redirects prf s).onlyChanges_of_data (flData_onlyChanges prf s) (by simp [writesOf])

theorem fr_onlyChanges : OnlyChanges (writesOf .fr s) s (fr prf s) :=
  (fr_redirects prf s).onlyChanges_of_data (frData_onlyChanges prf s) (by simp [writesOf])

theorem lmmix_onlyChanges : OnlyChanges (writesOf .lmmix s) s (lmmix prf s) :=
  (lmmix_redirects prf s).onlyChanges_of_data (lmmixData_onlyChanges prf s) (by simp [writesOf])

theorem lmsig_onlyChanges : OnlyChanges (writesOf .lmsig s) s (lmsig s) := by
  refine ⟨fun p hp => ?_, lmsig_env s⟩
  cases p with
  | left | rnd | phase => simp [writesOf] at hp
  | _ => simp [Part.same, State.right]

theorem lmisig_onlyChanges : OnlyChanges (writesOf .lmisig s) s (lmisig s) := by
  refine ⟨fun p hp => ?_, lmisig_env s⟩
  cases p with
  | left | phase => simp [writesOf] at hp
  | _ => simp [Part.same, State.right]

theorem merge_onlyChanges : OnlyChanges (writesOf .merge s) s (merge s) := by
  refine ⟨fun p hp => ?_, merge_env s⟩
  cases p with
  | dout | phase => simp [writesOf] at hp
  | _ => simp [Part.same, State.left, State.right]

/-- ERASE leaves `DOUT`, `CMDR` and the PRF port (R206). -/
theorem erase_onlyChanges : OnlyChanges (writesOf .erase s) s (erase s) := by
  refine ⟨fun p hp => ?_, erase_env s⟩
  cases p with
  | dout => exact erase_dout s
  | cmdr => exact erase_cmdr s
  | prfPort => exact erase_prfReq s
  | _ => simp [writesOf] at hp

/-- An accepted START writes what R200 lists, a refused one `CMDR` and `STATUS`, and one while busy nothing. -/
theorem startCommand_onlyChanges (d : Direction) (v : Variant) (k i o : Nat) :
    OnlyChanges [.key, .din, .cmdr, .status, .rnd, .phase] s (startCommand d v k i o s) := by
  rcases startCommand_cases d v k i o s with ⟨-, h⟩ | ⟨-, -, h⟩ | ⟨-, -, h⟩ <;> rw [h]
  · exact OnlyChanges.refl ..
  · exact (takeException_onlyChanges ..).mono (by simp)
  · refine ⟨fun p hp => ?_, rfl⟩
    cases p with
    | key | din | cmdr | status | rnd | phase => simp at hp
    | _ => simp [Part.same, State.left, State.right]

end

/-- Every instruction completes in every state (R245, R248), within its frame. -/
theorem exec_frame (i : Instr) (s : State) : ∃ t, exec i s = .next t ∧ OnlyChanges (writesOf i s) s t :=
  match i with
  | .encF .. | .decF .. | .encLM .. | .decLM .. => ⟨_, rfl, startCommand_onlyChanges s ..⟩
  | .ksinit => ⟨_, rfl, ksinit_onlyChanges s⟩
  | .kswk => ⟨_, rfl, kswk_onlyChanges _ s⟩
  | .ksrk => ⟨_, rfl, ksrk_onlyChanges _ s⟩
  | .split => ⟨_, rfl, split_onlyChanges s⟩
  | .wha => ⟨_, rfl, wha_onlyChanges s⟩
  | .whb => ⟨_, rfl, whb_onlyChanges s⟩
  | .fl => ⟨_, rfl, fl_onlyChanges _ s⟩
  | .fr => ⟨_, rfl, fr_onlyChanges _ s⟩
  | .lmmix => ⟨_, rfl, lmmix_onlyChanges _ s⟩
  | .lmsig => ⟨_, rfl, lmsig_onlyChanges s⟩
  | .lmisig => ⟨_, rfl, lmisig_onlyChanges s⟩
  | .merge => ⟨_, rfl, merge_onlyChanges s⟩
  | .erase => ⟨_, rfl, erase_onlyChanges s⟩

/-- Settles O44: the one state an instruction answers is within its frame. -/
theorem instructionsWriteOnlyTheirParts : Obligations.InstructionsWriteOnlyTheirParts := by
  intro i s t h
  obtain ⟨u, hu, hframe⟩ := exec_frame i s
  obtain rfl := Host.Outcome.next.inj (hu.symm.trans h)
  exact hframe

/-! ### Results: the key schedule and the block -/

/-- Settles O13: the increment by bytes, the register that is stored, the successor at and before the last round key, and the
frame. -/
theorem ksrkDerivesARoundKey : Obligations.KsrkDerivesARoundKey := by
  intro s
  obtain ⟨hpos, -⟩ := rounds_bounds s
  have hnext := ksrk_next Config.prf s
  refine ⟨ksrk Config.prf s, exec_ksrk s, ⟨?last, ?head⟩, by simp, fun h => ?store, fun hr => ?done, fun hr => ?more,
    ksrk_onlyChanges _ s⟩
  case last => simpa only [ksrk_ctr, ksrkData_ctr] using toNat_incLast_last s.ctr
  case head => exact fun i hi => by simp [Nat.ne_of_lt hi]
  case store =>
    have hrk := ksrkData_rk Config.prf s ⟨s.rnd.toNat, h⟩
    rw [if_pos rfl] at hrk
    rw [ksrk_rk, ksrk_pout, ksrkData_pout]
    exact hrk
  case done =>
    rw [if_pos (by omega)] at hnext
    exact (Prod.mk.inj hnext).symm
  case more =>
    rw [if_neg (by omega)] at hnext
    exact (Prod.mk.inj hnext).symm

/-- Settles O16: the two padded slices byte by byte, the successor by direction, and the frame. -/
theorem splitMakesPaddedHalves : Obligations.SplitMakesPaddedHalves := by
  intro s
  have hnext := split_next s
  refine ⟨split s, exec_split s, fun i hi => by simp [hi], ?rnd, fun hd => ?encrypt, fun hd => ?decrypt,
    split_onlyChanges s⟩
  case rnd => cases hd : s.dir <;> rw [hd] at hnext <;> exact (Prod.mk.inj hnext).2
  case encrypt | decrypt =>
    rw [hd] at hnext
    exact (Prod.mk.inj hnext).1

/-- Settles O19: the bytes of a concatenation, and the frame. -/
theorem mergeWritesTheResult : Obligations.MergeWritesTheResult :=
  fun s => ⟨merge s, exec_merge s, fun i hi => by simp [State.left, State.right, hi], merge_phase s, merge_onlyChanges s⟩

/-! ### Results: the rounds -/

/-- Settles O21: the PRF output, the Left Half byte by byte, the three successors, and the frame. -/
theorem flUpdatesTheLeftHalf : Obligations.FlUpdatesTheLeftHalf := by
  intro s
  have hnext := fl_next Config.prf s
  refine ⟨fl Config.prf s, exec_fl s, fun h => ?pout, fun i hi => by simp [State.left, hi], fun hd => ?encrypt,
    fun hd hr => ?last, fun hd hr => ?more, fl_onlyChanges _ s⟩
  case pout => rw [fl_pout, flData_pout, roundKey_of_lt s _ h]
  case encrypt =>
    rw [hd] at hnext
    exact (Prod.mk.inj hnext).symm
  case last =>
    simp only [hd, if_pos hr] at hnext
    exact hr ▸ (Prod.mk.inj hnext).symm
  case more =>
    simp only [hd, if_neg hr] at hnext
    exact (Prod.mk.inj hnext).symm

/-- Settles O22: the PRF output, the Right Half byte by byte, the three successors, and the frame. -/
theorem frUpdatesTheRightHalf : Obligations.FrUpdatesTheRightHalf := by
  intro s
  have hnext := fr_next Config.prf s
  refine ⟨fr Config.prf s, exec_fr s, fun h => ?pout, fun i hi => by simp [State.right, hi], fun hd hr => ?last,
    fun hd hr => ?more, fun hd => ?decrypt, fr_onlyChanges _ s⟩
  case pout => rw [fr_pout, frData_pout, roundKey_of_lt s _ h]
  case last =>
    simp only [hd, if_pos hr] at hnext
    exact (Prod.mk.inj hnext).symm
  case more =>
    simp only [hd, if_neg hr] at hnext
    exact (Prod.mk.inj hnext).symm
  case decrypt =>
    rw [hd] at hnext
    exact (Prod.mk.inj hnext).symm

/-- Settles O27: Combined byte by byte, the PRF output, the one mask on both halves, the four successors, and the frame. -/
theorem lmmixMixesBothHalves : Obligations.LmmixMixesBothHalves := by
  intro s
  obtain ⟨hpos, -⟩ := rounds_bounds s
  have hnext := lmmix_next Config.prf s
  refine ⟨lmmix Config.prf s, exec_lmmix s, fun i hi => ?combined, fun h => ?pout, fun i hi => ?halves,
    fun hd hr => ?encryptLast, fun hd hr => ?encryptMore, fun hd hr => ?decryptLast, fun hd hr => ?decryptMore,
    lmmix_onlyChanges _ s⟩
  case combined => simp [combined, State.left, State.right, hi]
  case pout => rw [lmmix_pout, lmmixData_pout, lmmix_cbuf, lmmixData_cbuf, roundKey_of_lt s _ h]
  case halves => simp [State.left, State.right, hi]
  case encryptLast =>
    simp only [hd, if_pos (show s.rnd.toNat + 1 = s.rounds by omega)] at hnext
    exact (Prod.mk.inj hnext).symm
  case encryptMore =>
    simp only [hd, if_neg (show ¬ s.rnd.toNat + 1 = s.rounds by omega)] at hnext
    exact (Prod.mk.inj hnext).symm
  case decryptLast =>
    simp only [hd, if_pos hr] at hnext
    exact hr ▸ (Prod.mk.inj hnext).symm
  case decryptMore =>
    simp only [hd, if_neg hr] at hnext
    exact (Prod.mk.inj hnext).symm

/-- Settles O28: `sigma` by quarters, the wrapping increment, and the frame. -/
theorem lmsigAppliesSigmaToTheLeftHalf : Obligations.LmsigAppliesSigmaToTheLeftHalf := by
  intro s
  refine ⟨lmsig s, exec_lmsig s, fun j hj => ?halves, by simp [BitVec.toNat_add], lmsig_phase s, lmsig_onlyChanges s⟩
  case halves =>
    have hj8 : j < 8 := by omega
    simp [hj8, hj, getElem_sigma_low, getElem_sigma_high, State.left]

/-- Settles O29: `sigma_inv` by quarters, and the frame. -/
theorem lmisigUndoesSigmaOnTheLeftHalf : Obligations.LmisigUndoesSigmaOnTheLeftHalf := by
  intro s
  refine ⟨lmisig s, exec_lmisig s, fun j hj => ?halves, lmisig_phase s, lmisig_onlyChanges s⟩
  case halves =>
    have hj8 : j < 8 := by omega
    simp [hj8, hj, getElem_sigmaInv_low, getElem_sigmaInv_high, State.left]

/-! ### Results: ERASE and START -/

/-- Settles O32: what ERASE clears is `erase_cleared`, and it writes neither `DOUT` nor `CMDR`. -/
theorem eraseClearsAllButTheResult : Obligations.EraseClearsAllButTheResult :=
  fun s => ⟨erase s, exec_erase s, erase_cleared s, by rw [erase_status]; rfl, erase_phase s, erase_dout s, erase_cmdr s,
    erase_prfReq s, erase_env s⟩

/-- An idle core accepts each of the four commands with the lengths of R94 (R200). -/
theorem exec_commandOf_valid (d : Direction) (v : Variant) {s : State} (h : s.phase = .idle) :
    exec (commandOf d v 32 16 16) s = .next (acceptStart (commandWord d v 32 16 16) s) := by
  rw [exec_commandOf, startCommand_of_lengths_right h ⟨rfl, rfl, rfl⟩]

/-- Settles O8: the four words of R95 are those of the four commands. -/
theorem commandsAreAcceptedWhenIdle : Obligations.CommandsAreAcceptedWhenIdle :=
  fun _ h => ⟨exec_commandOf_valid .encrypt .feistel h, exec_commandOf_valid .decrypt .feistel h,
    exec_commandOf_valid .encrypt .laiMassey h, exec_commandOf_valid .decrypt .laiMassey h⟩

end Sys2Proof.Machine
end

section
/-! PROOF. The pure functions: the Feistel loops (spec/42_feistel.md, R163 to R165), and what is left of the four commands
under a PRF that is identically zero (R168, R192). -/

namespace Sys2Proof.Machine

/-- Settles O23: each pair of rounds is undone by its two steps in the opposite order, and the loops run the pairs in
opposite orders. -/
theorem feistelLoopsInvert : Obligations.FeistelLoopsInvert :=
  fun prf rk n h => ⟨feistelDec_feistelEnc prf rk n h, feistelEnc_feistelDec prf rk n h⟩

/-! ### A PRF that is identically zero -/

section
variable {prf : Prf} (hzero : ∀ x y, prf x y = zeroBytes 32)
include hzero

theorem roundF_of_zero (k : Bytes 32) (h : Bytes 8) : roundF prf k h = zeroBytes 8 := by
  rw [roundF, hzero, trunc8, slice_zeroBytes]

theorem feistelLeft_of_zero (rk : Nat → Bytes 32) (i : Nat) (h : Bytes 8 × Bytes 8) : feistelLeft prf rk i h = h := by
  rw [feistelLeft, roundF_of_zero hzero, xorBytes_zero]

theorem feistelRight_of_zero (rk : Nat → Bytes 32) (i : Nat) (h : Bytes 8 × Bytes 8) : feistelRight prf rk i h = h := by
  rw [feistelRight, roundF_of_zero hzero, xorBytes_zero]

theorem lmMixHalves_of_zero (rk : Nat → Bytes 32) (i : Nat) (h : Bytes 8 × Bytes 8) : lmMixHalves prf rk i h = h := by
  rw [lmMixHalves, roundF_of_zero hzero, xorBytes_zero, xorBytes_zero]

/-- Every Feistel round is the identity, in both directions (R168). -/
theorem cipherRounds_feistel_of_zero (d : Direction) (rk : Nat → Bytes 32) (h : Bytes 8 × Bytes 8) :
    cipherRounds prf d .feistel rk h = h := by
  cases d with
  | encrypt =>
    exact List.foldl_fixed' (fun i => by rw [feistelEncPair, feistelLeft_of_zero hzero, feistelRight_of_zero hzero]) _
  | decrypt =>
    exact List.foldl_fixed' (fun i => by rw [feistelDecPair, feistelRight_of_zero hzero, feistelLeft_of_zero hzero]) _

/-- Of the six rounds five applications of `sigma` are left, and `sigma` has order three (R182, R192). -/
theorem cipherRounds_laiMassey_of_zero (rk : Nat → Bytes 32) (h : Bytes 8 × Bytes 8) :
    cipherRounds prf .encrypt .laiMassey rk h = (sigmaInv h.1, h.2) := by
  have hfive : cipherRounds prf .encrypt .laiMassey rk h = (sigma (sigma (sigma (sigma (sigma h.1)))), h.2) := by
    simp [cipherRounds, lmEnc, lmEncRound, lmMixHalves_of_zero hzero, List.range_succ]
  rw [hfive, sigma_sigma, sigma_sigma, sigmaInv_sigma _]

theorem whitenA_of_zero (key : Bytes 32) (h : Bytes 8 × Bytes 8) : whitenA (scheduleWk prf key) h = h := by
  simp [whitenA, scheduleWk, hzero]

theorem whitenB_of_zero (key : Bytes 32) (h : Bytes 8 × Bytes 8) : whitenB (scheduleWk prf key) h = h := by
  simp [whitenB, scheduleWk, hzero]

end

/-- Settles O38: the whitening material is zero too, so only the rounds stand between the split and the merge. -/
theorem zeroPrfShowsTheWiring : Obligations.ZeroPrfShowsTheWiring := by
  intro prf d k b hzero
  constructor
  · cases d <;>
      simp only [cipher, whitenA_of_zero hzero, whitenB_of_zero hzero, cipherRounds_feistel_of_zero hzero,
        mergeHalves_splitBlock]
  · simp only [cipher, whitenA_of_zero hzero, whitenB_of_zero hzero, cipherRounds_laiMassey_of_zero hzero, splitBlock,
      mergeHalves]

end Sys2Proof.Machine
end

section
/-! PROOF. The run of a command (spec/44_commands.md): its micro-operations in order (R201 to R204), that it ends (R289), and
that it computes the pure function of the key and the block (R209, R211). Control depends on the table of R205 alone; what
each micro-operation does to the two halves is a step of the pure functions (`halvesStep`), so a run of the machine is a run
of the table and the halves together (`OnBlock.run`), and that run is the cipher (`foldl_commandPoints`). -/

namespace Sys2Proof.Machine

/-! ### The core's own run -/

section
variable {s : State}

theorem microStep_of_idle (h : s.phase = .idle) : microStep s = s := by simp only [microStep, h]
theorem microStep_of_ksinit (h : s.phase = .ksinit) : microStep s = ksinit s := by simp only [microStep, h]
theorem microStep_of_kswk (h : s.phase = .kswk) : microStep s = kswk Config.prf s := by simp only [microStep, h]
theorem microStep_of_merge (h : s.phase = .merge) : microStep s = merge s := by simp only [microStep, h]
theorem microStep_of_erase (h : s.phase = .erase) : microStep s = erase s := by simp only [microStep, h]

end

theorem microRun_add (m n : Nat) (s : State) : microRun (m + n) s = microRun n (microRun m s) := by
  induction m generalizing s with
  | zero => rw [Nat.zero_add]; rfl
  | succ m ih => rw [Nat.succ_add]; exact ih (microStep s)

/-- Every command begins with KSINIT and KSWK, whatever `RND` is. -/
theorem microRun_kswk_ksinit {s : State} (hp : s.phase = .ksinit) (n : Nat) :
    microRun (n + 2) s = microRun n (kswk Config.prf (ksinit s)) := by
  rw [microRun, microRun, microStep_of_ksinit hp, microStep_of_kswk (ksinit_phase s)]

theorem microRun_env (n : Nat) (s : State) : (microRun n s).env = s.env := by
  induction n generalizing s with
  | zero => rfl
  | succ n ih => exact (ih _).trans (microStep_env s)

theorem control_kswk (s : State) : (kswk Config.prf s).control = (.ksrk, 0) := by simp [State.control]

theorem microStep_dir (s : State) : (microStep s).dir = s.dir := congrArg dirOf (microStep_cmdr s)

theorem microStep_var (s : State) : (microStep s).var = s.var := congrArg varOf (microStep_cmdr s)

/-! ### The sequence of a command -/

/-- The table of R205 as a step on control points. -/
def tableNext (d : Direction) (v : Variant) (c : Phase × Nat) : Phase × Nat := nextPhase c.1 c.2 d v

theorem phaseTrace_succ (n : Nat) {s : State} (hs : s.env.script = []) :
    phaseTrace (n + 1) s = s.phase :: phaseTrace n (microStep s) := by
  simp only [phaseTrace, step_alone hs]

/-- On the paths the phases of a run are those of the table. -/
theorem phaseTrace_eq_iterate (n : Nat) {s : State} (h : OnPath s) (hs : s.env.script = []) :
    phaseTrace n s = (List.iterate (tableNext s.dir s.var) s.control n).map Prod.fst := by
  induction n generalizing s with
  | zero => rfl
  | succ n ih =>
    rw [phaseTrace_succ n hs, ih (microStep_onPath h) (by rw [microStep_env, hs]), microStep_dir, microStep_var,
      microStep_control h]
    rfl

theorem phaseTrace_ksinit (n : Nat) {s : State} (hp : s.phase = .ksinit) (hs : s.env.script = []) :
    phaseTrace (n + 2) s = .ksinit :: .kswk :: (List.iterate (tableNext s.dir s.var) (.ksrk, 0) n).map Prod.fst := by
  rw [phaseTrace_succ _ hs, microStep_of_ksinit hp, phaseTrace_succ n (by rw [ksinit_env, hs]),
    microStep_of_kswk (ksinit_phase s), phaseTrace_eq_iterate n (underWay_kswk_ksinit s).onPath (by simp [hs]), hp,
    ksinit_phase, control_kswk]
  simp [State.dir, State.var]

/-- Settles O34: from the first KSRK on the phases are those of the table, which is run for each of the four commands. -/
theorem commandsRunTheirSequences : Obligations.CommandsRunTheirSequences := by
  intro s hp hs
  have hsteps : commandSteps s.var = commandSteps s.var - 2 + 2 := by cases s.var <;> rfl
  rw [hsteps, phaseTrace_ksinit _ hp hs]
  cases s.dir <;> cases s.var <;> rfl

/-! ### A command ends -/

/-- How many micro-operations a command has before it, by its control point (R201 to R204). -/
def stepsLeft (d : Direction) (v : Variant) : Phase × Nat → Nat
  | (.idle, _) => 0
  | (.ksinit, _) => commandSteps v
  | (.kswk, _) => commandSteps v - 1
  | (.ksrk, r) => commandSteps v - 2 - r
  | (.split, _) => commandSteps v - 2 - roundsOf v
  | (.wha, _) => if d = .encrypt then commandSteps v - 3 - roundsOf v else 3
  | (.whb, _) => if d = .encrypt then 3 else commandSteps v - 3 - roundsOf v
  | (.fl, r) => if d = .encrypt then 11 - r else 4 + r
  | (.fr, r) => if d = .encrypt then 10 - r else 5 + r
  | (.lmmix, r) => if d = .encrypt then 14 - 2 * r else 4 + 2 * r
  | (.lmsig, r) => 13 - 2 * r
  | (.lmisig, r) => 5 + 2 * r
  | (.merge, _) => 2
  | (.erase, _) => 1

/-- Each row of the table is one micro-operation less to run. -/
theorem stepsLeft_nextPhase {d : Direction} {v : Variant} {p : Phase} {r : Nat} (h : PathPoint d v (p, r))
    (hp : p ≠ .idle) : stepsLeft d v (nextPhase p r d v) + 1 = stepsLeft d v (p, r) := by
  cases p with simp only [PathPoint] at h
  | idle => exact absurd rfl hp
  | ksinit | kswk | split | wha | whb | merge | erase => cases d <;> cases v <;> rfl
  | ksrk =>
    have hsteps : roundsOf v + 2 < commandSteps v := by cases v <;> decide
    simp only [nextPhase]
    split <;> simp only [stepsLeft] <;> omega
  | fl =>
    obtain ⟨rfl, heven, hlt⟩ := h
    have h8 : roundsOf .feistel = 8 := rfl
    cases d with simp only [nextPhase]
    | encrypt => simp only [stepsLeft, reduceIte]; omega
    | decrypt => split <;> simp only [stepsLeft, reduceIte, reduceCtorEq] <;> omega
  | fr =>
    obtain ⟨rfl, heven, hlt⟩ := h
    have h8 : roundsOf .feistel = 8 := rfl
    cases d with simp only [nextPhase]
    | encrypt => split <;> simp only [stepsLeft, reduceIte] <;> omega
    | decrypt => simp only [stepsLeft, reduceIte, reduceCtorEq]; omega
  | lmmix =>
    obtain ⟨rfl, hlt⟩ := h
    have h6 : roundsOf .laiMassey = 6 := rfl
    cases d with simp only [nextPhase]
    | encrypt => split <;> simp only [stepsLeft, reduceIte] <;> omega
    | decrypt => split <;> simp only [stepsLeft, reduceIte, reduceCtorEq] <;> omega
  | lmsig =>
    obtain ⟨rfl, rfl, hlt⟩ := h
    have h6 : roundsOf .laiMassey = 6 := rfl
    simp only [nextPhase, stepsLeft, reduceIte]
    omega
  | lmisig =>
    obtain ⟨rfl, rfl, hlt⟩ := h
    simp only [nextPhase, stepsLeft, reduceIte, reduceCtorEq]
    omega

/-- No command is longer than the whole of its table (R201 to R204). -/
theorem stepsLeft_le {d : Direction} {v : Variant} {p : Phase} {r : Nat} (h : PathPoint d v (p, r)) :
    stepsLeft d v (p, r) ≤ commandSteps v := by
  have hsteps : 2 * roundsOf v + 5 ≤ commandSteps v := by cases v <;> decide
  cases p with simp only [PathPoint] at h
  | idle | ksinit | kswk | ksrk | split | merge | erase => simp only [stepsLeft]; omega
  | wha | whb => simp only [stepsLeft]; split <;> omega
  | fl | fr =>
    obtain ⟨rfl, -, hlt⟩ := h
    have h8 : r < 8 := hlt
    simp only [stepsLeft, commandSteps]
    split <;> omega
  | lmmix =>
    obtain ⟨rfl, hlt⟩ := h
    have h6 : r < 6 := hlt
    simp only [stepsLeft, commandSteps]
    split <;> omega
  | lmsig | lmisig =>
    obtain ⟨rfl, -, hlt⟩ := h
    have h6 : r + 1 < 6 := hlt
    simp only [stepsLeft, commandSteps]
    omega

theorem stepsLeft_microStep {s : State} (h : OnPath s) (hbusy : s.phase ≠ .idle) :
    stepsLeft (microStep s).dir (microStep s).var (microStep s).control + 1 = stepsLeft s.dir s.var s.control := by
  rw [microStep_dir, microStep_var, microStep_control h]
  exact stepsLeft_nextPhase ((onPath_iff_pathPoint s).mp h) hbusy

/-- A busy core on the paths ends its command, with ERASE, when its table says so (R207, R289). -/
theorem microRun_stepsLeft (n : Nat) {s : State} (h : OnPath s) (hbusy : s.phase ≠ .idle)
    (hn : stepsLeft s.dir s.var s.control = n) :
    (microRun n s).phase = .idle ∧ (microRun n s).status = .done ∧ Cleared (microRun n s) := by
  have hstep := (stepsLeft_microStep h hbusy).trans hn
  induction n generalizing s with
  | zero => exact absurd hstep (Nat.succ_ne_zero _)
  | succ n ih =>
    have hnext := Nat.succ.inj hstep
    by_cases he : s.phase = .erase
    · rw [microStep_of_erase he] at hnext
      obtain rfl : 0 = n := by simpa [State.control, stepsLeft] using hnext
      rw [microRun, microRun, microStep_of_erase he]
      exact ⟨erase_phase s, erase_status s, erase_cleared s⟩
    · have hpath' := microStep_onPath h
      have hbusy' := microStep_phase_ne_idle hbusy he
      exact ih hpath' hbusy' hnext ((stepsLeft_microStep hpath' hbusy').trans hnext)

/-- Settles O41: the number of steps is the one the table leaves. -/
theorem busyCoreReachesIdle : Obligations.BusyCoreReachesIdle := by
  intro s hpath hbusy hs
  obtain ⟨hidle, hdone, hcleared⟩ := microRun_stepsLeft _ hpath hbusy rfl
  exact ⟨_, _, stepsLeft_le ((onPath_iff_pathPoint s).mp hpath), runSteps_alone _ hs, hidle, hdone, hcleared⟩

/-! ### What a command does to the halves -/

/-- The Left Half and the Right Half. -/
def State.halves (s : State) : Bytes 8 × Bytes 8 := (s.left, s.right)

/-- What the micro-operation at a control point does to the halves in a command with the master key `k` and the block `b`,
in terms of the pure functions (R146, R163, R187, R188). -/
def halvesStep (prf : Prf) (k : Bytes 32) (b : Bytes 16) (h : Bytes 8 × Bytes 8) : Phase × Nat → Bytes 8 × Bytes 8
  | (.split, _) => splitBlock b
  | (.wha, _) => whitenA (scheduleWk prf k) h
  | (.whb, _) => whitenB (scheduleWk prf k) h
  | (.fl, r) => feistelLeft prf (scheduleRk prf k) r h
  | (.fr, r) => feistelRight prf (scheduleRk prf k) (r + 1) h
  | (.lmmix, r) => lmMixHalves prf (scheduleRk prf k) r h
  | (.lmsig, _) => (sigma h.1, h.2)
  | (.lmisig, _) => (sigmaInv h.1, h.2)
  | (.erase, _) => (zeroBytes 8, zeroBytes 8)
  | _ => h

/-- After the key schedule `WK` is its first output. -/
theorem UnderWay.wk {k : Bytes 32} {s : State} (h : UnderWay k s) (hk : s.phase.keyed) :
    s.wk = scheduleWk Config.prf k := by
  have hkey : s.key = k := h.key fun hidle => by simp [hidle, Phase.keyed] at hk
  obtain ⟨hwk, -⟩ := h.keysDerived
  rw [← hkey]
  exact hwk (by rw [derivations_of_keyed hk]; omega)

/-- `DIN` is held up to ERASE (R25). -/
theorem microStep_din (s : State) : (microStep s).din = if s.phase = .erase then zeroBytes 16 else s.din := by
  unfold microStep
  cases s.phase <;> simp

/-- A micro-operation that makes a request ends it, and no other touches the port (R73, R75). -/
theorem microStep_prfReq (s : State) :
    (microStep s).prfReq = if (prfRequestOf s).isSome then none else s.prfReq := by
  unfold microStep prfRequestOf
  cases s.phase <;> simp

/-- A command under way with the master key `k` on the block `b`, no request outstanding. -/
structure OnBlock (k : Bytes 32) (b : Bytes 16) (s : State) : Prop extends UnderWay k s where
  din : s.phase ≠ .idle → s.din = b
  prfReq : s.prfReq = none

theorem onBlock_kswk_ksinit (s : State) : OnBlock s.key s.din (kswk Config.prf (ksinit s)) where
  toUnderWay := underWay_kswk_ksinit s
  din _ := by simp
  prfReq := kswk_prfReq ..

theorem OnBlock.next {k : Bytes 32} {b : Bytes 16} {s : State} (h : OnBlock k b s) : OnBlock k b (microStep s) where
  toUnderWay := h.toUnderWay.next
  din hidle := by
    by_cases he : s.phase = .erase
    · rw [microStep_of_erase he] at hidle
      exact absurd (erase_phase s) hidle
    · rw [microStep_din, if_neg he]
      refine h.din fun hi => hidle ?_
      rw [microStep_of_idle hi, hi]
  prfReq := by rw [microStep_prfReq, h.prfReq, ite_self]

/-- In a command under way the micro-operations are the steps of the pure functions. -/
theorem OnBlock.halves_microStep {k : Bytes 32} {b : Bytes 16} {s : State} (h : OnBlock k b s) :
    (microStep s).halves = halvesStep Config.prf k b s.halves s.control := by
  have hpath := h.onPath
  unfold State.halves State.control microStep
  cases hp : s.phase with simp only [OnPath, hp] at hpath
  | idle | ksinit | kswk | ksrk | merge | lmsig | lmisig => simp [halvesStep, State.left, State.right]
  | erase => simp [halvesStep, State.left, State.right, halfOf]
  | split =>
    have hdin := h.din (by simp [hp])
    simp [halvesStep, splitBlock, State.left, State.right, hdin]
  | wha =>
    have hwk := h.wk (hp ▸ rfl)
    simp [halvesStep, whitenA, State.left, State.right, hwk]
  | whb =>
    have hwk := h.wk (hp ▸ rfl)
    simp [halvesStep, whitenB, State.left, State.right, hwk]
  | fl =>
    obtain ⟨-, -, hlt⟩ := hpath
    obtain ⟨-, hpad⟩ := h.halvesPadded (by simp [hp]) (by simp [hp])
    have hrk := h.roundKey (hp ▸ rfl) hlt
    simp [halvesStep, feistelLeft, roundF, State.left, State.right, hrk, pad16_halfOf hpad]
  | fr =>
    obtain ⟨hv, heven, hlt⟩ := hpath
    obtain ⟨hpad, -⟩ := h.halvesPadded (by simp [hp]) (by simp [hp])
    have h8 : s.rounds = 8 := rounds_of_var hv
    have hrk := h.roundKey (i := s.rnd.toNat + 1) (hp ▸ rfl) (by omega)
    simp [halvesStep, feistelRight, roundF, State.left, State.right, hrk, pad16_halfOf hpad]
  | lmmix =>
    obtain ⟨-, hlt⟩ := hpath
    have hrk := h.roundKey (hp ▸ rfl) hlt
    simp [halvesStep, lmMixHalves, roundF, State.left, State.right, hrk, combined]

/-- A run of a command under way, in control and in the halves. -/
theorem OnBlock.run {k : Bytes 32} {b : Bytes 16} (n : Nat) {s : State} (h : OnBlock k b s) :
    OnBlock k b (microRun n s) ∧ (microRun n s).control = (tableNext s.dir s.var)^[n] s.control ∧
    (microRun n s).halves =
      (List.iterate (tableNext s.dir s.var) s.control n).foldl (halvesStep Config.prf k b) s.halves := by
  induction n generalizing s with
  | zero => exact ⟨h, rfl, rfl⟩
  | succ n ih =>
    have hrest := ih h.next
    rwa [h.halves_microStep, microStep_dir, microStep_var, microStep_control h.onPath] at hrest

/-! ### The rounds and the whole command -/

/-- The control points of the rounds of a command, round by round. -/
def roundPoints : Direction → Variant → List (Phase × Nat)
  | .encrypt, .feistel => (pairIndices Config.nrF).flatMap fun i => [(.fl, i), (.fr, i)]
  | .decrypt, .feistel => (pairIndices Config.nrF).reverse.flatMap fun i => [(.fr, i), (.fl, i)]
  | .encrypt, .laiMassey =>
    (List.range Config.nrLM).flatMap fun i => (.lmmix, i) :: if i ≠ Config.nrLM - 1 then [(.lmsig, i)] else []
  | .decrypt, .laiMassey =>
    (List.range Config.nrLM).reverse.flatMap fun i => (if i ≠ Config.nrLM - 1 then [(.lmisig, i)] else []) ++ [(.lmmix, i)]

/-- The control points of a command from the first KSRK to the second whitening. -/
def commandPoints (d : Direction) (v : Variant) : List (Phase × Nat) :=
  (List.range (roundsOf v)).map (.ksrk, ·) ++ (.split, 0) ::
    match d with
    | .encrypt => (.wha, 0) :: (roundPoints d v ++ [(.whb, 0)])
    | .decrypt => (.whb, 0) :: (roundPoints d v ++ [(.wha, 0)])

/-- The table of R205 runs through the points of each command, and MERGE is next. -/
theorem iterate_tableNext (d : Direction) (v : Variant) :
    List.iterate (tableNext d v) (.ksrk, 0) (commandSteps v - 4) = commandPoints d v ∧
    (tableNext d v)^[commandSteps v - 4] (.ksrk, 0) = (.merge, 0) := by
  cases d <;> cases v <;> exact ⟨rfl, rfl⟩

section
variable (prf : Prf) (k : Bytes 32) (b : Bytes 16)

/-- The points of a round are the body of the loop, round by round (R163, R164, R187, R188). -/
theorem foldl_roundPoints (d : Direction) (v : Variant) (h : Bytes 8 × Bytes 8) :
    (roundPoints d v).foldl (halvesStep prf k b) h = cipherRounds prf d v (scheduleRk prf k) h := by
  cases d <;> cases v <;> simp only [roundPoints, List.foldl_flatMap, cipherRounds]
  case encrypt.feistel | decrypt.feistel => rfl
  case encrypt.laiMassey | decrypt.laiMassey =>
    refine List.foldl_ext _ _ _ fun h i _ => ?_
    by_cases hi : i ≠ Config.nrLM - 1
    · simp only [if_pos hi, lmEncRound, lmDecRound]; rfl
    · simp only [if_neg hi, lmEncRound, lmDecRound]; rfl

/-- The points of a command are the pure function of its key and its block, whatever the halves were (R208). -/
theorem foldl_commandPoints (d : Direction) (v : Variant) (h : Bytes 8 × Bytes 8) :
    mergeHalves ((commandPoints d v).foldl (halvesStep prf k b) h) = cipher prf d v k b := by
  cases d <;>
    simp only [commandPoints, List.foldl_append, List.foldl_cons, List.foldl_nil, foldl_roundPoints, halvesStep, cipher]

end

/-- MERGE and ERASE end a command (R143, R206). -/
theorem erase_merge {s : State} (h : s.prfReq = none) :
    erase (merge s) = afterCommand s.cmdr (mergeHalves s.halves) s.env := by
  simp only [erase, merge, clearWorking, State.goto, h]
  rfl

theorem microRun_merge {s : State} (hp : s.phase = .merge) : microRun 2 s = erase (merge s) := by
  rw [microRun, microRun, microRun, microStep_of_merge hp, microStep_of_erase (merge_phase s)]

/-- From KSINIT a command computes the pure function of `KEY` and `DIN`. -/
theorem microRun_command {s : State} (hp : s.phase = .ksinit) :
    microRun (commandSteps s.var) s = afterCommand s.cmdr (cipher Config.prf s.dir s.var s.key s.din) s.env := by
  have hsteps : commandSteps s.var = commandSteps s.var - 4 + 2 + 2 := by cases s.var <;> rfl
  have hcmdr : (kswk Config.prf (ksinit s)).cmdr = s.cmdr := by simp
  have hdir : (kswk Config.prf (ksinit s)).dir = s.dir := congrArg dirOf hcmdr
  have hvar : (kswk Config.prf (ksinit s)).var = s.var := congrArg varOf hcmdr
  obtain ⟨hpoints, hlast⟩ := iterate_tableNext s.dir s.var
  obtain ⟨hblock, hcontrol, hhalves⟩ := (onBlock_kswk_ksinit s).run (commandSteps s.var - 4)
  rw [control_kswk, hdir, hvar] at hcontrol hhalves
  rw [hlast] at hcontrol
  have hphase := congrArg Prod.fst hcontrol
  rw [hsteps, microRun_kswk_ksinit hp, microRun_add, microRun_merge hphase, erase_merge hblock.prfReq, hhalves, hpoints,
    foldl_commandPoints, microRun_cmdr, hcmdr, microRun_env, kswk_env, ksinit_env]

/-- A START of one of the four valid words on an idle core, and the core's steps after it (R209). -/
theorem runSteps_command (d : Direction) (v : Variant) {s : State} {k : Bytes 32} {b : Bytes 16} (hidle : s.phase = .idle)
    (hs : s.env.script = [.start (commandWord d v 32 16 16) k b]) :
    runSteps (commandSteps v + 1) s = .next
      (afterCommand (commandWord d v 32 16 16) (cipher Config.prf d v k b)
        { s.env with script := [], keyPort := k, dinPort := b }) := by
  have hstart : step s =
      .next (acceptStart (commandWord d v 32 16 16) ((s.withScript []).drivePorts k b)) := by
    rw [step_event hs, afterEvent_start, startOutcome_commandWord d v (s := (s.withScript []).drivePorts k b) hidle]
  rw [runSteps_succ _ hstart, runSteps_alone _ rfl]
  have hrun := microRun_command (acceptStart_phase (commandWord d v 32 16 16) ((s.withScript []).drivePorts k b))
  simp only [State.dir, State.var, acceptStart_cmdr, dirOf_commandWord, varOf_commandWord] at hrun
  exact congrArg _ hrun

/-- Settles O35: the end state of `runSteps_command` for the Feistel variant. -/
theorem feistelCommandComputesTheCipher : Obligations.FeistelCommandComputesTheCipher :=
  fun _ d _ _ => runSteps_command d .feistel

/-- Settles O36: the end state of `runSteps_command` for the Lai-Massey variant. -/
theorem laiMasseyCommandComputesTheCipher : Obligations.LaiMasseyCommandComputesTheCipher :=
  fun _ d _ _ => runSteps_command d .laiMassey

/-- Settles O39: the end state of a command is a function of its word, its key and its block (R209), environments apart. -/
theorem noHiddenStateBetweenCommands : Obligations.NoHiddenStateBetweenCommands := by
  intro s₁ s₂ t₁ t₂ d v k b hidle₁ hidle₂ hs₁ hs₂ hrun₁ hrun₂
  obtain rfl := Host.Outcome.next.inj ((runSteps_command d v hidle₁ hs₁).symm.trans hrun₁)
  obtain rfl := Host.Outcome.next.inj ((runSteps_command d v hidle₂ hs₂).symm.trans hrun₂)
  rfl

end Sys2Proof.Machine
end

section
/-! PROOF. What every step keeps: `STATUS` and `PHASE` (spec/10_state.md R36, spec/44_commands.md R207), the registers of the
command in progress (R24, R25, R33), and the whole invariant. -/

namespace Sys2Proof.Machine

/-! ### STATUS and PHASE -/

/-- `STATUS` is written by START and by ERASE (R36). -/
theorem microStep_status (s : State) : (microStep s).status = if s.phase = .erase then .done else s.status := by
  unfold microStep
  cases s.phase <;> simp

/-- The five values (R36). -/
theorem statusBits_mem (st : Status) : statusBits st ∈ [0b0000#4, 0b0001#4, 0b0010#4, 0b0100#4, 0b1000#4] := by
  cases st <;> decide

theorem reset_statusAgrees : StatusAgrees State.reset := by simp [StatusAgrees]

/-- `BUSY` falls with the one micro-operation that ends in IDLE (R34, R206). -/
theorem microStep_statusAgrees {s : State} (h : StatusAgrees s) : StatusAgrees (microStep s) := by
  unfold StatusAgrees at *
  rw [microStep_status]
  by_cases hi : s.phase = .idle
  · rw [microStep_of_idle hi, if_neg (by simp [hi])]
    exact h
  by_cases he : s.phase = .erase
  · simp [microStep_of_erase he, he]
  · rw [if_neg he]
    exact iff_of_true (h.mpr hi) (microStep_phase_ne_idle hi he)

theorem statusAgrees_takeException (e : CoreException) (w : BitVec 32) {s : State} (h : s.phase = .idle) :
    StatusAgrees (takeException e w s) := by
  cases e <;> simp [StatusAgrees, statusOfException, h]

theorem statusAgrees_acceptStart (w : BitVec 32) (s : State) : StatusAgrees (acceptStart w s) := by simp [StatusAgrees]

theorem step_statusAgrees {s t : State} (hst : StatusAgrees s) (h : step s = .next t) : StatusAgrees t := by
  apply step_ind h
  case micro => exact fun _ => microStep_statusAgrees hst
  case same => exact fun _ => hst
  case reset => exact fun _ _ => reset_statusAgrees
  case held => intro _; simpa [StatusAgrees] using hst
  case exception => exact fun e _ w hi => statusAgrees_takeException e w hi
  case accepted => exact fun _ w _ => statusAgrees_acceptStart w _

/-- Settles O51: the five values, and `BUSY` at reset and after every step. -/
theorem statusTellsBusyDoneOrError : Obligations.StatusTellsBusyDoneOrError :=
  ⟨statusBits_mem, reset_statusAgrees, fun _ _ => step_statusAgrees⟩

/-- Settles O47: of the events that a busy core takes notice of, only a reset and the micro-operation ERASE end in IDLE. -/
theorem onlyEraseEndsACommand : Obligations.OnlyEraseEndsACommand := by
  intro s t h hbusy
  apply step_ind (P := fun t => t.phase = .idle →
    (s.phase = .erase ∧ t.status = .done ∧ t.dout = s.dout) ∨ ∃ rest, s.env.script = .reset :: rest) h
  case micro =>
    intro env hidle
    by_cases he : s.phase = .erase
    · refine .inl ⟨he, ?_, ?_⟩ <;> simp [microStep_status, microStep_dout, he]
    · exact absurd hidle (microStep_phase_ne_idle (s := { s with env := env }) hbusy he)
  case same => exact fun _ hidle => absurd hidle hbusy
  case reset => exact fun rest hs _ => .inr ⟨rest, hs⟩
  case held => exact fun _ hidle => absurd ((holdRequest_phase _).symm.trans hidle) hbusy
  case exception => exact fun _ _ _ hi => absurd hi hbusy
  case accepted => exact fun _ _ hi => absurd hi hbusy

/-! ### KEY, DIN and CMDR -/

/-- Settles O46: in these phases a micro-operation writes none of the three, and only an idle core takes a START. -/
theorem commandRegistersAreHeldWhileBusy : Obligations.CommandRegistersAreHeldWhileBusy := by
  intro s t h hbusy herase hreset
  apply step_ind (P := fun t => t.key = s.key ∧ t.din = s.din ∧ t.cmdr = s.cmdr) h
  case micro => exact fun _ => by simp [microStep_key, microStep_din, microStep_cmdr, herase]
  case same => exact fun _ => ⟨rfl, rfl, rfl⟩
  case reset => exact fun rest hs => absurd hs (hreset rest)
  case held => exact fun _ => by simp
  case exception => exact fun _ _ _ hi => absurd hi hbusy
  case accepted => exact fun _ _ hi => absurd hi hbusy

/-! ### The invariant at IDLE and at the start of a command -/

/-- The events to come are no part of the invariant. -/
theorem Inv.withEnv {s : State} (h : Inv s) (env : Env) : Inv { s with env := env } :=
  ⟨h.padded, h.statusAgrees, h.erased, h.onPath, h.counterCounts, h.keysDerived, h.unusedZero, h.portHolds⟩

theorem Cleared.padded {s : State} (h : Cleared s) : Padded s := by
  obtain ⟨-, -, -, -, -, hl, hr, hc, -, -⟩ := h
  simp [Padded, hl, hr, hc]

theorem Cleared.unusedZero {s : State} (h : Cleared s) : UnusedZero s := by
  obtain ⟨-, -, -, -, hrk, -, -, hc, -, -⟩ := h
  exact ⟨fun i _ => hrk i, fun _ => hc⟩

theorem Cleared.counterCounts {s : State} (h : Cleared s) (hd : derivations s = 0) : CounterCounts s := by
  obtain ⟨-, -, hctr, -⟩ := h
  rw [CounterCounts, hd, counterBlock_zero, hctr]

theorem keysDerived_of_derivations_zero {s : State} (hd : derivations s = 0) : KeysDerived s := by
  simp [KeysDerived, hd]

theorem Cleared.rnd {s : State} (h : Cleared s) : s.rnd = 0#8 := by
  obtain ⟨-, -, -, -, -, -, -, -, -, hrnd⟩ := h
  exact hrnd

/-- A cleared core with nothing on the port meets the invariant, whatever `DOUT`, `CMDR` and `STATUS` tell. -/
theorem inv_of_idle {s : State} (hidle : s.phase = .idle) (hclr : Cleared s) (hst : StatusAgrees s)
    (hport : s.prfReq = none) : Inv s where
  padded := hclr.padded
  statusAgrees := hst
  erased _ := hclr
  onPath := by simp only [OnPath, hidle, hclr.rnd]
  counterCounts := hclr.counterCounts (by simp only [derivations, hidle])
  keysDerived := keysDerived_of_derivations_zero (by simp only [derivations, hidle])
  unusedZero := hclr.unusedZero
  portHolds r hr := by simp [hport] at hr

/-- No micro-operation is in `PHASE` at IDLE, so no request is outstanding (R73). -/
theorem PortHolds.prfReq_eq_none {s : State} (h : PortHolds s) (hreq : prfRequestOf s = none) : s.prfReq = none := by
  cases hr : s.prfReq with
  | none => rfl
  | some r => exact nomatch (h r hr).symm.trans hreq

theorem Inv.prfReq_of_idle {s : State} (h : Inv s) (hidle : s.phase = .idle) : s.prfReq = none :=
  h.portHolds.prfReq_eq_none (by simp only [prfRequestOf, hidle])

theorem reset_inv : Inv State.reset := inv_of_idle reset_phase reset_cleared reset_statusAgrees reset_prfReq

/-- Settles O52: the reset state is idle, cleared and silent. -/
theorem invariantHoldsAtReset : Obligations.InvariantHoldsAtReset := reset_inv

theorem takeException_inv {s : State} (h : Inv s) (hidle : s.phase = .idle) (e : CoreException) (w : BitVec 32) :
    Inv (takeException e w s) :=
  inv_of_idle hidle (h.erased hidle) (statusAgrees_takeException e w hidle) (h.prfReq_of_idle hidle)

/-- A START on an idle core: every register that the schedule and the rounds will write is still zero (R200, R215). -/
theorem acceptStart_inv {s : State} (h : Inv s) (hidle : s.phase = .idle) (w : BitVec 32) : Inv (acceptStart w s) where
  padded := h.padded
  statusAgrees := statusAgrees_acceptStart w s
  erased hi := nomatch hi
  onPath := acceptStart_rnd w s
  counterCounts := by
    obtain ⟨-, -, hctr, -⟩ := h.erased hidle
    simp [CounterCounts, derivations, hctr]
  keysDerived := keysDerived_of_derivations_zero rfl
  unusedZero := by
    obtain ⟨-, -, -, -, hrk, -, -, hc, -, -⟩ := h.erased hidle
    exact ⟨fun i _ => hrk i, fun _ => hc⟩
  portHolds r hr := by
    rw [acceptStart_prfReq, h.prfReq_of_idle hidle] at hr
    exact nomatch hr

/-! ### The invariant and the micro-operations -/

/-- KSRK stays below `NR(VAR)`, and only LMMIX, which variant F does not run, writes `CBUF` (R23, R31). -/
theorem microStep_unusedZero {s : State} (hpath : OnPath s) (h : UnusedZero s) : UnusedZero (microStep s) := by
  obtain ⟨hrk, hcbuf⟩ := h
  unfold UnusedZero State.rounds
  rw [microStep_var]
  change (∀ i : Fin Config.nrMax, s.rounds ≤ i.val → _) ∧ _
  cases hp : s.phase with simp only [OnPath, hp] at hpath
  | ksrk =>
    refine ⟨fun i hi => ?_, by simpa [microStep, hp] using hcbuf⟩
    simp only [microStep, hp, ksrk_rk, ksrkData_rk, if_neg (show s.rnd.toNat ≠ i.val by omega)]
    exact hrk i hi
  | lmmix =>
    obtain ⟨hv, -⟩ := hpath
    exact ⟨by simpa [microStep, hp] using hrk, fun hf => nomatch hv.symm.trans hf⟩
  | erase => simp [microStep, hp]
  | _ => exact ⟨by simpa [microStep, hp] using hrk, by simpa [microStep, hp] using hcbuf⟩

/-- After a step of the core by itself nothing is outstanding: its own request is answered, and there was no other. -/
theorem microStep_portHolds {s : State} (h : PortHolds s) : PortHolds (microStep s) := by
  intro r hr
  rw [microStep_prfReq] at hr
  cases hreq : prfRequestOf s with
  | some q => simp [hreq] at hr
  | none => simp [hreq, h.prfReq_eq_none hreq] at hr

theorem microStep_inv {s : State} (h : Inv s) : Inv (microStep s) where
  padded := microStep_padded h.padded
  statusAgrees := microStep_statusAgrees h.statusAgrees
  erased := microStep_idle_cleared h.erased
  onPath := microStep_onPath h.onPath
  counterCounts := microStep_counterCounts h.onPath h.counterCounts
  keysDerived := microStep_keysDerived h.onPath h.counterCounts h.keysDerived
  unusedZero := microStep_unusedZero h.onPath h.unusedZero
  portHolds := microStep_portHolds h.portHolds

/-- A held request is the one of the micro-operation in `PHASE` (R73). -/
theorem holdRequest_inv {s : State} (h : Inv s) : Inv (holdRequest s) := by
  rcases holdRequest_cases s with ⟨r, hr, heq⟩ | ⟨-, heq⟩ <;> rw [heq]
  · refine ⟨h.padded, h.statusAgrees, h.erased, h.onPath, h.counterCounts, h.keysDerived, h.unusedZero, fun q hq => ?_⟩
    obtain rfl : r = q := Option.some.inj hq
    exact hr
  · exact h

/-- Settles O53: the six cases of a step, each of which keeps the invariant. -/
theorem everyStepKeepsTheInvariant : Obligations.EveryStepKeepsTheInvariant := by
  intro s t hinv h
  apply step_ind h
  case micro => exact fun env => microStep_inv (hinv.withEnv env)
  case same => exact fun env => hinv.withEnv env
  case reset => exact fun _ _ => reset_inv.withEnv _
  case held => exact fun env => holdRequest_inv (hinv.withEnv env)
  case exception => exact fun e env w hidle => takeException_inv (hinv.withEnv env) hidle e w
  case accepted => exact fun env w hidle => acceptStart_inv (hinv.withEnv env) hidle w

end Sys2Proof.Machine
end

section
/-! PROOF. The PRF port (spec/20_memory.md R72, R73), and what a step is for each kind of event (R67, spec/30_encoding.md R102,
spec/60_exceptions.md R245). -/

namespace Sys2Proof.Machine

/-! ### The PRF port -/

/-- `POUT` takes the response of the micro-operation's request; ERASE clears it, and no other micro-operation writes it
(R32, R72). -/
theorem microStep_pout (s : State) :
    (microStep s).pout =
      match prfRequestOf s with
      | some r => Config.prf r.key r.input
      | none => if s.phase = .erase then zeroBytes 32 else s.pout := by
  unfold microStep prfRequestOf
  cases s.phase <;> simp [scheduleRequest, flRequest, frRequest, lmmixRequest]

theorem microStep_pout_of_request {s : State} {r : PrfRequest} (h : prfRequestOf s = some r) :
    (microStep s).pout = Config.prf r.key r.input := by
  rw [microStep_pout, h]

/-- Settles O54: the request of each of the five, its registers read, and `POUT` its response. -/
theorem prfRequestsFollowTheTable : Obligations.PrfRequestsFollowTheTable := by
  intro s t hs hstep
  obtain rfl := Host.Outcome.next.inj ((step_alone hs).symm.trans hstep)
  refine ⟨fun hp => ?schedule, fun h hp => ?fl, fun h hp => ?fr, fun h hp => ?lmmix,
    fun _ => microStep_pout_of_request, fun hnone herase => ?none⟩
  case schedule =>
    have hreq : prfRequestOf s = some (scheduleRequest s) := by rcases hp with hp | hp <;> simp only [prfRequestOf, hp]
    have hctr : (microStep s).ctr = incLast s.ctr := by rcases hp with hp | hp <;> simp [microStep_ctr, hp]
    rw [microStep_pout_of_request hreq, hctr]
    rfl
  case fl =>
    rw [microStep_pout_of_request (r := flRequest s) (by simp only [prfRequestOf, hp]), flRequest, roundKey_of_lt s _ h]
  case fr =>
    rw [microStep_pout_of_request (r := frRequest s) (by simp only [prfRequestOf, hp]), frRequest, roundKey_of_lt s _ h]
  case lmmix =>
    have hcbuf : (microStep s).cbuf = combined s := by simp [microStep, hp]
    rw [microStep_pout_of_request (r := lmmixRequest s) (by simp only [prfRequestOf, hp]), hcbuf, lmmixRequest,
      roundKey_of_lt s _ h]
  case none => rw [microStep_pout, hnone]; exact if_neg herase

/-- The request of the micro-operation in `PHASE` does not depend on what is outstanding, nor on the environment. -/
theorem prfRequestOf_withPort (s : State) (q : Option PrfRequest) (env : Env) :
    prfRequestOf { s with prfReq := q, env := env } = prfRequestOf s := rfl

/-- Where the invariant holds, the request that a waiting core holds is the one of the micro-operation in `PHASE`, if that
makes one, and none else. -/
theorem holdRequest_eq {s : State} (h : PortHolds s) : holdRequest s = { s with prfReq := prfRequestOf s } := by
  rcases holdRequest_cases s with ⟨r, hr, heq⟩ | ⟨hnone, heq⟩
  · rw [heq, hr]
  · rw [heq, hnone, ← h.prfReq_eq_none hnone]

/-- Settles O56: waiting writes the port only, with the request that stands there already if one does. -/
theorem waitingCoreHoldsItsRequest : Obligations.WaitingCoreHoldsItsRequest := by
  intro s t rest hinv hs hstep
  have hport : PortHolds (s.withScript rest) := hinv.portHolds
  obtain rfl : holdRequest (s.withScript rest) = t := Host.Outcome.next.inj ((step_event hs).symm.trans hstep)
  rw [holdRequest_eq hport]
  exact ⟨rfl, rfl, prfRequestOf_withPort s .., fun r hr => hinv.portHolds r hr⟩

/-! ### One step -/

/-- Settles O48: a read adds its answer to the host's record. -/
theorem hostReadsHaveNoSideEffect : Obligations.HostReadsHaveNoSideEffect :=
  fun _ r _ hs => ⟨_, step_event hs, rfl, rfl, by cases r <;> rfl⟩

/-- The code in `PHASE` decodes to the micro-operation that the core's own step runs (R34, R99). -/
theorem exec_of_decodePhase {s : State} {i : Instr} (h : decodePhase (phaseCode s.phase) = .ok i) :
    exec i s = .next (microStep s) := by
  have hrun : fetchCore s = .run i s := by rw [fetchCore, h]
  rw [← runFetched_fetchCore, hrun]
  rfl

theorem phase_ne_idle_of_decodePhase {s : State} {i : Instr} (h : decodePhase (phaseCode s.phase) = .ok i) :
    s.phase ≠ .idle := by
  intro hidle
  rw [hidle] at h
  exact nomatch h

/-- Settles O58: the event, where there is one, comes to the core's own step or to the START of the word. -/
theorem stepRunsTheDecodedInstruction : Obligations.StepRunsTheDecodedInstruction := by
  intro s i
  refine ⟨fun hdec => ⟨fun hs => ?alone, fun rest hs => ?coreStep, fun rest hs => ?wait, fun rest hs hreq => ?prfAnswer⟩,
    fun w k d rest hdec hs => ?start⟩
  case alone => rw [step_alone hs, exec_of_decodePhase hdec]
  case coreStep =>
    rw [step_event hs]
    exact (exec_of_decodePhase (s := s.withScript rest) hdec).symm
  case wait =>
    have hready : ¬ ready s = true := mt (ready_iff s).mp (phase_ne_idle_of_decodePhase hdec)
    rw [step_event hs, exec_of_decodePhase hdec, afterEvent, if_neg hready]
  case prfAnswer =>
    rw [step_event hs, afterEvent, if_pos hreq]
    exact (exec_of_decodePhase (s := s.withScript rest) hdec).symm
  case start =>
    have hrun : fetch s = .run i ((s.withScript rest).drivePorts k d) := by
      simp only [fetch, hs, fetchEvent, fetchStart, hdec]
    rw [step_eq, hrun]
    rfl

/-- Settles O59: an idle core's own step is nothing, and WAIT is over when the core is idle. -/
theorem idleCoreWaits : Obligations.IdleCoreWaits := by
  intro s hidle
  refine ⟨fun hs => ?alone, fun rest hs => ?event⟩
  case alone => rw [step_alone hs, microStep_of_idle hidle]
  case event =>
    rcases hs with hs | hs <;> rw [step_event hs, afterEvent]
    · rw [if_pos ((ready_iff s).mpr hidle)]; rfl
    · rw [microStep_of_idle (s := s.withScript rest) hidle]; rfl

/-- Settles O60: the core's own step and every event answer a next state. -/
theorem noStepStops : Obligations.NoStepStops := by
  intro s
  cases hs : s.env.script with
  | nil => exact ⟨_, step_alone hs⟩
  | cons e rest => exact ⟨_, step_event hs⟩

/-! ### Control and data -/

/-- Where the sequencer goes depends on `PHASE`, `RND` and `CMDR` alone, off the paths too (R213). -/
theorem microStep_phase_rnd_congr {s t : State} (hphase : s.phase = t.phase) (hrnd : s.rnd = t.rnd)
    (hcmdr : s.cmdr = t.cmdr) :
    ((microStep s).phase, (microStep s).rnd) = ((microStep t).phase, (microStep t).rnd) := by
  have hdir : s.dir = t.dir := congrArg dirOf hcmdr
  have hvar : s.var = t.var := congrArg varOf hcmdr
  have hrounds : s.rounds = t.rounds := congrArg roundsOf hvar
  unfold microStep
  rw [← hphase]
  cases hp : s.phase with
  | idle => exact Prod.ext hphase hrnd
  | ksinit | kswk | lmsig | lmisig | merge | erase => simp [hrnd]
  | ksrk => simp only [ksrk_next, hrnd, hrounds]
  | split => simp only [split_next, hdir]
  | wha => simp only [wha_next, hdir, hvar, hrnd]
  | whb => simp only [whb_next, hdir, hvar, hrnd]
  | fl => simp only [fl_next, hdir, hrnd]
  | fr => simp only [fr_next, hdir, hrnd, hrounds]
  | lmmix => simp only [lmmix_next, hdir, hrnd, hrounds]

/-- Which micro-operations call the PRF is a matter of `PHASE` alone (R72). -/
theorem isSome_prfRequestOf_congr {s t : State} (h : s.phase = t.phase) :
    (prfRequestOf s).isSome = (prfRequestOf t).isSome := by
  unfold prfRequestOf
  rw [← h]
  cases s.phase <;> rfl

theorem isSome_holdRequest_prfReq (s : State) :
    (holdRequest s).prfReq.isSome = ((prfRequestOf s).isSome || s.prfReq.isSome) := by
  rcases holdRequest_cases s with ⟨r, hr, heq⟩ | ⟨hnone, heq⟩ <;> rw [heq]
  · simp [hr]
  · simp [hnone]

section
variable {s t : State}

theorem sameControl_microStep (h : SameControl s t) : SameControl (microStep s) (microStep t) := by
  obtain ⟨hphase, hrnd, hcmdr, hstatus, hreq, hscript⟩ := h
  obtain ⟨hphase', hrnd'⟩ := Prod.mk.inj (microStep_phase_rnd_congr hphase hrnd hcmdr)
  refine ⟨hphase', hrnd', ?_, ?_, ?_, ?_⟩
  · rw [microStep_cmdr, microStep_cmdr, hcmdr]
  · rw [microStep_status, microStep_status, hphase, hstatus]
  · rw [microStep_prfReq, microStep_prfReq, isSome_prfRequestOf_congr hphase]
    split <;> simp [hreq]
  · rw [microStep_env, microStep_env, hscript]

theorem sameControl_withScript (h : SameControl s t) {rest rest' : List Event}
    (hrest : rest.map Event.shape = rest'.map Event.shape) : SameControl (s.withScript rest) (t.withScript rest') := by
  obtain ⟨hphase, hrnd, hcmdr, hstatus, hreq, -⟩ := h
  exact ⟨hphase, hrnd, hcmdr, hstatus, hreq, hrest⟩

theorem sameControl_holdRequest (h : SameControl s t) : SameControl (holdRequest s) (holdRequest t) := by
  obtain ⟨hphase, hrnd, hcmdr, hstatus, hreq, hscript⟩ := h
  have hreq' : (holdRequest s).prfReq.isSome = (holdRequest t).prfReq.isSome := by
    rw [isSome_holdRequest_prfReq, isSome_holdRequest_prfReq, isSome_prfRequestOf_congr hphase, hreq]
  refine ⟨?_, ?_, ?_, ?_, hreq', ?_⟩ <;> simpa

/-- A START asks the word and whether the core is idle, and samples the ports only (R200). -/
theorem sameControl_startOutcome (h : SameControl s t) (w : BitVec 32) :
    SameControl (startOutcome w s) (startOutcome w t) := by
  obtain ⟨hphase, hrnd, hcmdr, hstatus, hreq, hscript⟩ := h
  simp only [startOutcome, hphase]
  split
  case isTrue => exact ⟨hphase, hrnd, hcmdr, hstatus, hreq, hscript⟩
  split
  case isTrue => exact ⟨hphase, hrnd, rfl, rfl, hreq, hscript⟩
  split
  case isTrue => exact ⟨hphase, hrnd, rfl, rfl, hreq, hscript⟩
  case isFalse => exact ⟨rfl, rfl, rfl, rfl, hreq, hscript⟩

/-- Only a START has a key and a block to leave out. -/
theorem shape_eq_self_or_start (e : Event) : e.shape = e ∨ ∃ w k d, e = .start w k d := by
  cases e with
  | start w k d => exact .inr ⟨w, k, d, rfl⟩
  | _ => exact .inl rfl

/-- Events of one shape are the same event, or two STARTs of one word. -/
theorem shape_eq_cases {e e' : Event} (h : e.shape = e'.shape) :
    e = e' ∨ ∃ w k d k' d', e = .start w k d ∧ e' = .start w k' d' := by
  rcases shape_eq_self_or_start e with he | ⟨w, k, d, rfl⟩ <;>
    rcases shape_eq_self_or_start e' with he' | ⟨w', k', d', rfl⟩
  · exact .inl (he.symm.trans (h.trans he'))
  · exact .inr ⟨w', _, _, k', d', he.symm.trans h, rfl⟩
  · exact .inr ⟨w, k, d, _, _, rfl, he'.symm.trans h.symm⟩
  · obtain ⟨rfl, -, -⟩ := Event.start.inj h
    exact .inr ⟨w, k, d, k', d', rfl, rfl⟩

theorem sameControl_afterEvent (h : SameControl s t) {e e' : Event} {rest rest' : List Event} (he : e.shape = e'.shape)
    (hrest : rest.map Event.shape = rest'.map Event.shape) :
    SameControl (afterEvent e rest s) (afterEvent e' rest' t) := by
  have hnext := sameControl_withScript h hrest
  have ⟨hphase, _, _, _, hreq, _⟩ := h
  rcases shape_eq_cases he with rfl | ⟨w, k, d, k', d', rfl, rfl⟩
  · cases e with
    | reset => exact ⟨rfl, rfl, rfl, rfl, rfl, hrest⟩
    | start w k d =>
      rw [afterEvent_start, afterEvent_start]
      exact sameControl_startOutcome (s := (s.withScript rest).drivePorts k d) (t := (t.withScript rest').drivePorts k d)
        hnext w
    | coreStep => exact sameControl_microStep hnext
    | wait =>
      simp only [afterEvent, ready_iff, hphase]
      split
      · exact hnext
      · exact sameControl_microStep h
    | read r => exact hnext
    | prfDelay => exact sameControl_holdRequest hnext
    | prfAnswer =>
      simp only [afterEvent, hreq]
      split
      · exact sameControl_microStep hnext
      · exact hnext
  · rw [afterEvent_start, afterEvent_start]
    exact sameControl_startOutcome (s := (s.withScript rest).drivePorts k d) (t := (t.withScript rest').drivePorts k' d')
      hnext w

end

/-- Settles O40: the two scripts begin with events of one shape or are both empty. -/
theorem controlDoesNotSeeData : Obligations.ControlDoesNotSeeData := by
  intro s₁ s₂ t₁ t₂ h h₁ h₂
  have ⟨_, _, _, _, _, hscript⟩ := h
  cases hs₁ : s₁.env.script with
  | nil =>
    have hs₂ : s₂.env.script = [] := by simpa [hs₁] using hscript.symm
    obtain rfl := Host.Outcome.next.inj ((step_alone hs₁).symm.trans h₁)
    obtain rfl := Host.Outcome.next.inj ((step_alone hs₂).symm.trans h₂)
    exact sameControl_microStep h
  | cons e rest =>
    cases hs₂ : s₂.env.script with
    | nil => simp [hs₁, hs₂] at hscript
    | cons e' rest' =>
      rw [hs₁, hs₂] at hscript
      obtain ⟨he, hrest⟩ := List.cons.inj hscript
      obtain rfl := Host.Outcome.next.inj ((step_event hs₁).symm.trans h₁)
      obtain rfl := Host.Outcome.next.inj ((step_event hs₂).symm.trans h₂)
      exact sameControl_afterEvent h he hrest

end Sys2Proof.Machine
end
